-- ==== Sys2Proof/Word.lean ====
section
/-! DEFINITION. The word types of the block's registers and of the wire (spec 00_scope R8, R9). -/

namespace Sys2Proof

/-- One byte of the wire, `0..255` (R8). -/
abbrev Byte := BitVec 8

/-- A 16-bit quantity: a byte pair, a checksum, a type code, a PWM compare register (R9, R20, R51). -/
abbrev Word16 := BitVec 16

/-- A 32-bit quantity: a filter accumulator, a sensor value's two's-complement pattern (R9). -/
abbrev Word32 := BitVec 32

/-- A 12-bit channel value as the parser assembles it (R23, R74). -/
abbrev Chan12 := BitVec 12

end Sys2Proof
end

