-- ==== Sys2Proof/Config.lean ====
section
/-! DEFINITION. The constants the spec fixes, the shape of the open parameters of 00_scope R6 as plain data, and the
free values (constants without a body). The reference values RC are in Machine/Reference.lean, the constraints of R6 and the
functions these parameters denote are in Machine/Params.lean. -/

namespace Sys2Proof.Config

/-! ### Constants the source fixes (R6, rows marked "yes") -/

/-- `NCH`: channels per servo frame. -/
abbrev nch : Nat := 14
/-- `NSENS`: sensor table entries. -/
abbrev nsens : Nat := 3
/-- `RB_CAP`: response buffer capacity in bytes. -/
abbrev rbCap : Nat := 8
/-- `NPWM`: PWM outputs. -/
abbrev npwm : Nat := 7
/-- `HDR0`. -/
def hdr0 : Byte := 0x20
/-- `HDR1`. -/
def hdr1 : Byte := 0x40
/-- `CK_INIT`: checksum start value. -/
def ckInit : Word16 := 0xFFFF
/-- `QLEN`: query frame length byte. -/
def qlen : Byte := 0x04
/-- `CMD_PROBE`. -/
def cmdProbe : BitVec 4 := 0x8
/-- `CMD_TYPE`. -/
def cmdType : BitVec 4 := 0x9
/-- `CMD_VALUE`. -/
def cmdValue : BitVec 4 := 0xA
/-- `FSHIFT`: extra precision of the filter accumulator, 7 bits (90_conflicts C1: 128, not 16). -/
def fshift : Nat := 7
/-- `CENTER`: neutral value of channels and duties. -/
def center : Int := 1500

/-! ### Free values: no body, so nothing can be proved of the value -/

/-- The answer of the acquisition peripheral to a request that the environment's script says nothing about: `none` is
"never returns" (R102, R107; decision D20: a draw under no law). Applied to the draw counter of the state. -/
opaque adcDraw : Nat → Option (BitVec 24)

/-- What a register that R39 calls "unspecified" holds after EV_RST (93_implementation_defined U1, U2: any value).
Applied to the draw counter and to the number of the register's place. -/
opaque resetBits : Nat → Nat → Word32

end Sys2Proof.Config

namespace Sys2Proof

/-! ### Open parameters (R6) as plain data -/

/-- One entry of the Sensor Descriptor table `REG` (R29): acquisition channel (0 = not installed) and type code. -/
structure SensorDesc where
  chan : Nat
  type : Word16
  deriving DecidableEq, Repr

/-- The unit conversion `CONV(k, ·)` of one sensor (R105). `scaled mul off` is the linear shape
`((f * mul) >> 12) - off`; `table` lists the results for `f = 0, 1, …` and so can be any function of the reading. -/
inductive Conversion where
  | scaled (mul off : Int)
  | table (values : List Word32)
  deriving DecidableEq, Repr

/-- The magnitude curve `VCURVE` (R176). `twoSlope` is the two-slope shape over `VALVE_MIN` and `VALVE_KNEE`;
`table` lists `VCURVE(VALVE_MIN + j) - 1` for `j = 0, 1, …` (the last entry holds on), so it can be any curve that is 0
exactly below `VALVE_MIN`. -/
inductive Curve where
  | twoSlope
  | table (steps : List Nat)
  deriving DecidableEq, Repr

/-- The snap predicate `SNAP` (R183). `centred` is `abs(target) < RAMP_DB and abs(prev) > RAMP_MID`; `pairs` lists the
`(target, prev)` at which the ramp snaps, so it can be any predicate on a finite range. -/
inductive SnapRule where
  | centred
  | pairs (at_ : List (Int × Int))
  deriving DecidableEq, Repr

/-- An argument of `MIXF` (R180): a decoded valve or drive value. -/
inductive MixArg where
  | vB | vM | vS | d0 | d1 | d2
  deriving DecidableEq, Repr

/-- A combination formula of `MIXF`: "built only from sums, differences and magnitudes of its arguments" (R180). -/
inductive MixExpr where
  | zero
  | arg (a : MixArg)
  | add (x y : MixExpr)
  | sub (x y : MixExpr)
  | mag (x : MixExpr)
  deriving DecidableEq, Repr

/-- The seven formulas of one drive mode (R180, R181): pump target, three drive targets, three valve commands. -/
structure MixRow where
  tp : MixExpr
  t0 : MixExpr
  t1 : MixExpr
  t2 : MixExpr
  cB : MixExpr
  cM : MixExpr
  cS : MixExpr
  deriving DecidableEq, Repr

/-- `DM(mode)`: which valve sticks the mode reuses as drive inputs (R179). -/
structure Reuse where
  bucket : Bool
  boom : Bool
  stick : Bool
  deriving DecidableEq, Repr

/-- Which of the two switch channels, index 6 or 7, selects the drive mode: `DRIVE_SW` (R172). -/
inductive SwitchSel where
  | ch6 | ch7
  deriving DecidableEq, Repr

/-- The seven outputs that `PWM_MAP` places on the PWM registers (R188). -/
inductive PwmOutput where
  | bucket | boom | stick | pump | drive0 | drive1 | drive2
  deriving DecidableEq, Repr

/-- One digital output function of `DOUTF` (R190) as a truth table: the output's level at
`6 * mode + 2 * aux + (1 if PUMP_ACTIVE)`. -/
abbrev PinTable := Vector Bool 18

/-- The configuration record of R6: every parameter marked OPEN whose value a rule reads (the timing parameters are read by
no rule, R5, R271). It is immutable (R12). That the duty limits and `PUMP_OFF_DUTY` are naturals is the model's choice
(notes/assumptions/25.md). -/
structure ConfigRec where
  reg : Vector SensorDesc Config.nsens
  rawBits : Nat
  conv : Vector Conversion Config.nsens
  swLo : Int
  swHi : Int
  driveSw : SwitchSel
  chBucket : Fin Config.nch
  chBoom : Fin Config.nch
  chStick : Fin Config.nch
  chDrv0 : Fin Config.nch
  chDrv1 : Fin Config.nch
  chDrv2 : Fin Config.nch
  trim : Vector Int 3
  valveMin : Nat
  valveKnee : Nat
  vcurve : Curve
  dm : Vector Reuse 3
  mixf : Vector MixRow 3
  pumpStep : Nat
  drvStep : Nat
  snap : SnapRule
  rampDb : Nat
  rampMid : Nat
  valveDutyMin : Nat
  valveDutyMax : Nat
  drvDutyMin : Nat
  drvDutyMax : Nat
  pumpDutyMin : Nat
  pumpDutyMax : Nat
  pumpKick : Nat
  pumpOffDuty : Nat
  pwmMap : Vector PwmOutput Config.npwm
  doutf : Vector PinTable 3
  deriving DecidableEq, Repr

end Sys2Proof
end

