-- ==== Sys2Proof/Machine/Operands.lean ====
section
/-! DEFINITION. Operand forms: byte order, bit fields, checksums and the clamp that every rule shares (00_scope R8,
20_memory R51, R52; 30_encoding R73 to R81, R87). No field is sign-extended on decode (R87). -/

namespace Sys2Proof.Machine

/-- The 16-bit value of a byte pair, `a` received first: `a | (b << 8)` (R51). -/
def pair (a b : Byte) : Word16 := a.setWidth 16 ||| (b.setWidth 16 <<< 8)

/-- `w[7:0]`, the byte that travels first (R51). -/
def lowByte (w : Word16) : Byte := w.extractLsb' 0 8

/-- `w[15:8]`. -/
def highByte (w : Word16) : Byte := w.extractLsb' 8 8

/-- The command nibble `op = cmd[7:4]` of a query (R75). -/
def cmdOp (c : Byte) : BitVec 4 := c.extractLsb' 4 4

/-- The 1-based sensor index `i = cmd[3:0]` of a query (R75). -/
def cmdIndex (c : Byte) : BitVec 4 := c.extractLsb' 0 4

/-- The command byte with command nibble `op` and sensor index `i` (R75). -/
def cmdByte (op i : BitVec 4) : Byte := (op.setWidth 8 <<< 4) ||| i.setWidth 8

/-- The channel value of a pair: its low 12 bits, "upper 4 bits discarded" (R74). -/
def channelValue (w : Word16) : Chan12 := w.setWidth 12

/-- The declared payload width of a type code, `type[15:8]` (R81). -/
def typeWidth (t : Word16) : Byte := highByte t

/-- Subtract bytes from a running checksum, `mod 2^16`, in order (R73). -/
def ckSub (ck : Word16) : List Byte → Word16
  | [] => ck
  | b :: bs => ckSub (ck - b.setWidth 16) bs

/-- The checksum of the bytes before a trailer: `0xFFFF` minus their sum (R73). -/
def checksum (bytes : List Byte) : Word16 := ckSub Config.ckInit bytes

/-- The two bytes of a 16-bit quantity in wire order, low byte first (R51). -/
def bytes16 (w : Word16) : List Byte := [lowByte w, highByte w]

/-- The four bytes of a 32-bit value in wire order, least significant first (R51). -/
def bytes32 (v : Word32) : List Byte :=
  [v.extractLsb' 0 8, v.extractLsb' 8 8, v.extractLsb' 16 8, v.extractLsb' 24 8]

/-- The 32-bit value of four bytes in wire order (R51, R79). -/
def word32Of (b0 b1 b2 b3 : Byte) : Word32 :=
  b0.setWidth 32 ||| (b1.setWidth 32 <<< 8) ||| (b2.setWidth 32 <<< 16) ||| (b3.setWidth 32 <<< 24)

/-- The bytes of a list of pairs in wire order, each pair low byte first (R72). -/
def pairBytes : List Word16 → List Byte
  | [] => []
  | w :: ws => lowByte w :: highByte w :: pairBytes ws

/-- The pairs of a list of bytes (R72); a last single byte is left out. -/
def pairsOf : List Byte → List Word16
  | a :: b :: rest => pair a b :: pairsOf rest
  | _ => []

/-- `clamp(v, lo, hi)` (R8). -/
def clamp (v lo hi : Int) : Int :=
  if v < lo then lo else if v > hi then hi else v

end Sys2Proof.Machine
end

