-- ==== Sys2Proof/Machine/Params.lean ====
section
/-! DEFINITION. What the open parameters of 00_scope R6 denote (`CONV`, `VCURVE`, `SNAP`, `MIXF`, `DOUTF`), and the
constraints column of R6 as one decidable check, `ConfigRec.wf`. -/

namespace Sys2Proof.Machine

/-- `CONV(k, f)` for one sensor as an integer (R105). `>> 12` is floor division by 4096 (R8). -/
def convValue (c : Conversion) (f : Nat) : Int :=
  match c with
  | .scaled mul off => (f * mul) / 4096 - off
  | .table values => (values.getD f 0).toInt

/-- `CONV(k, f) -> i32`: the two's-complement pattern of the engineering value (R105, R79). -/
def convert (c : Conversion) (f : Nat) : Word32 := BitVec.ofInt 32 (convValue c f)

/-- `VCURVE(m)` (R176). The two-slope form: 0 below `VALVE_MIN`; half ratio, 1 at the boundary, below `VALVE_KNEE`; ratio 1
referenced to `VALVE_MID = (VALVE_MIN + VALVE_KNEE) >> 1` from there on. -/
def vcurve (cfg : ConfigRec) (m : Nat) : Nat :=
  if m < cfg.valveMin then 0
  else match cfg.vcurve with
    | .twoSlope =>
      if m < cfg.valveKnee then 1 + (m - cfg.valveMin) / 2
      else m - (cfg.valveMin + cfg.valveKnee) / 2
    | .table steps => 1 + steps.getD (m - cfg.valveMin) (steps.getLastD 0)

/-- `SNAP(target, prev)` (R183): in the RC form both comparisons are strict. -/
def snaps (cfg : ConfigRec) (target prev : Int) : Bool :=
  match cfg.snap with
  | .centred => target.natAbs < cfg.rampDb && cfg.rampMid < prev.natAbs
  | .pairs l => l.contains (target, prev)

/-- The decoded valve and drive values that `MIXF` combines (R180). -/
structure MixIn where
  vB : Int
  vM : Int
  vS : Int
  d0 : Int
  d1 : Int
  d2 : Int
  deriving DecidableEq, Repr

/-- The value of an argument of `MIXF`. -/
def mixArg (v : MixIn) (a : MixArg) : Int :=
  match a with
  | .vB => v.vB
  | .vM => v.vM
  | .vS => v.vS
  | .d0 => v.d0
  | .d1 => v.d1
  | .d2 => v.d2

/-- The value of a combination formula, on unbounded integers (R9, R180). -/
def mixEval (v : MixIn) : MixExpr → Int
  | .zero => 0
  | .arg a => mixArg v a
  | .add x y => mixEval v x + mixEval v y
  | .sub x y => mixEval v x - mixEval v y
  | .mag x => (mixEval v x).natAbs

/-- The position of `(mode, aux, PUMP_ACTIVE)` in the truth table of a digital output (R190). -/
def pinIndex (mode aux : Fin 3) (active : Bool) : Fin 18 :=
  ⟨6 * mode.val + 2 * aux.val + active.toNat, by
    have := mode.isLt; have := aux.isLt; cases active <;> simp <;> omega⟩

/-- `DOUTF`: the level of digital output `n` (R190). -/
def doutLevel (cfg : ConfigRec) (n : Fin 3) (mode aux : Fin 3) (active : Bool) : Bool :=
  cfg.doutf[n][pinIndex mode aux active]

/-- A list of naturals that never falls. -/
def nondecreasing : List Nat → Bool
  | a :: b :: rest => a ≤ b && nondecreasing (b :: rest)
  | _ => true

/-- The result of a conversion fits signed 32 bits for every reading of `rawBits` bits, and so does the product (R6). A
table holds 32-bit values; that it has exactly one for each reading is the model's (DESIGN CHOICE, notes/assumptions/25.md). -/
def convFits (rawBits : Nat) (c : Conversion) : Bool :=
  match c with
  | .scaled mul off =>
    let top : Int := 2 ^ rawBits - 1
    let fits (x : Int) : Bool := -2147483648 ≤ x && x ≤ 2147483647
    fits (top * mul) && fits (0 - off) && fits (top * mul / 4096 - off)
  | .table values => values.length == 2 ^ rawBits

/-- A sensor descriptor obeys "`chan = 0` iff `type = 0`" (R6). -/
def descOk (d : SensorDesc) : Bool := (d.chan == 0) == (d.type == 0)

/-- The constraints on the sensor side of R6: `REG`, `RAW_BITS`, `CONV` and its constants. -/
def sensorsOk (cfg : ConfigRec) : Bool :=
  cfg.reg[2] == ⟨0, 0⟩ && cfg.reg.toList.all descOk
    && 1 ≤ cfg.rawBits && cfg.rawBits ≤ 24 && cfg.conv.toList.all (convFits cfg.rawBits)

/-- The constraints on channel roles, switches, trims and the valve curve (R6, R179). -/
def decodeOk (cfg : ConfigRec) : Bool :=
  cfg.swLo ≤ cfg.swHi
    && cfg.chBucket != cfg.chBoom && cfg.chBucket != cfg.chStick && cfg.chBoom != cfg.chStick
    && cfg.chDrv0 != cfg.chDrv1 && cfg.chDrv0 != cfg.chDrv2 && cfg.chDrv1 != cfg.chDrv2
    && cfg.trim.toList.all (fun t => -512 ≤ t && t ≤ 512)
    && 1 ≤ cfg.valveMin && cfg.valveMin < cfg.valveKnee
    && (match cfg.vcurve with
        | .twoSlope => true
        | .table steps => nondecreasing steps)
    && cfg.dm[0] == ⟨false, false, false⟩

/-- A pair of duty clamps around the neutral value (R6). That both are naturals below 65536, what a 16-bit compare register holds
(R20, R32), is not in R6: DESIGN CHOICE, notes/assumptions/25.md. -/
def clampsOk (lo hi : Nat) : Bool := (lo : Int) ≤ Config.center && Config.center ≤ hi && hi < 65536

/-- The constraints on ramp, duties and the output map (R6). R6 asks only `PUMP_DUTY_MIN <= PUMP_DUTY_MAX` of the pump's clamps
and nothing of `PUMP_OFF_DUTY`; that these too are naturals below 65536, what a 16-bit compare register holds (R20, R32), is
the model's: DESIGN CHOICE, notes/assumptions/25.md. -/
def outputsOk (cfg : ConfigRec) : Bool :=
  1 ≤ cfg.pumpStep && 1 ≤ cfg.drvStep
    && clampsOk cfg.valveDutyMin cfg.valveDutyMax && clampsOk cfg.drvDutyMin cfg.drvDutyMax
    && cfg.pumpDutyMin ≤ cfg.pumpDutyMax && cfg.pumpDutyMax < 65536 && cfg.pumpOffDuty < 65536
    && decide cfg.pwmMap.toList.Nodup

/-- The constraints column of R6, `DM(0)` reusing no stick (R179), and the model's own bounds on duties and the length of a `CONV`
table (DESIGN CHOICE, notes/assumptions/25.md). A configuration that violates one is refused (93_implementation_defined U17 for
R6's, the model's choice for the others). The one constraint of R6 not checked, "pump target >= 0", holds by construction of
`mixTargets`. -/
def cfgOk (cfg : ConfigRec) : Bool := sensorsOk cfg && decodeOk cfg && outputsOk cfg

end Sys2Proof.Machine
end

