-- ==== Sys2Proof/Machine/Reference.lean ====
section
/-! DEFINITION. The reference configuration RC of 00_scope R6: the spec's own values for the open parameters. -/

namespace Sys2Proof.Machine

/-- RC's combination formulas, mode 0 (R181). -/
def rcMode0 : MixRow where
  tp := .add (.add (.mag (.arg .vB)) (.mag (.arg .vM))) (.mag (.arg .vS))
  t0 := .arg .d0
  t1 := .arg .d1
  t2 := .arg .d2
  cB := .arg .vB
  cM := .arg .vM
  cS := .arg .vS

/-- RC's combination formulas, mode 1: the stick lever steers (R181). -/
def rcMode1 : MixRow where
  tp := .add (.mag (.arg .vB)) (.mag (.arg .vM))
  t0 := .add (.arg .d0) (.arg .vS)
  t1 := .sub (.arg .d0) (.arg .vS)
  t2 := .arg .d2
  cB := .arg .vB
  cM := .arg .vM
  cS := .zero

/-- RC's combination formulas, mode 2: the boom lever steers (R181). -/
def rcMode2 : MixRow where
  tp := .add (.mag (.arg .vB)) (.mag (.arg .vS))
  t0 := .add (.arg .d0) (.arg .vM)
  t1 := .sub (.arg .d0) (.arg .vM)
  t2 := .arg .d2
  cB := .arg .vB
  cM := .zero
  cS := .arg .vS

/-- A truth table that does not look at the mode: the levels for `aux` = 0, 1, 2 and `PUMP_ACTIVE` = 0, 1. -/
def pinTable (f : Nat → Bool → Bool) : PinTable :=
  Vector.ofFn fun i => f (i.val % 6 / 2) (i.val % 2 == 1)

/-- The reference configuration (R6; decisions D3, D19, D21, D22, D24 to D30, D32 to D34). -/
def rc : ConfigRec where
  reg := #v[⟨1, 0x0201⟩, ⟨2, 0x0403⟩, ⟨0, 0x0000⟩]
  rawBits := 12
  conv := #v[.scaled 3300 500, .scaled 36300 0, .scaled 0 0]
  swLo := 1300
  swHi := 1700
  driveSw := .ch6
  chBucket := 0
  chBoom := 1
  chStick := 2
  chDrv0 := 3
  chDrv1 := 4
  chDrv2 := 5
  trim := #v[0, 0, 0]
  valveMin := 50
  valveKnee := 150
  vcurve := .twoSlope
  dm := #v[⟨false, false, false⟩, ⟨false, false, true⟩, ⟨false, true, false⟩]
  mixf := #v[rcMode0, rcMode1, rcMode2]
  pumpStep := 20
  drvStep := 10
  snap := .centred
  rampDb := 20
  rampMid := 250
  valveDutyMin := 1000
  valveDutyMax := 2000
  drvDutyMin := 1000
  drvDutyMax := 2000
  pumpDutyMin := 1500
  pumpDutyMax := 2000
  pumpKick := 60
  pumpOffDuty := 1500
  pwmMap := #v[.bucket, .boom, .stick, .pump, .drive0, .drive1, .drive2]
  doutf := #v[pinTable fun aux _ => 1 ≤ aux, pinTable fun aux _ => aux == 2, pinTable fun _ active => active]

end Sys2Proof.Machine
end

