-- ==== Sys2Proof/Syntax.lean ====
section
/-! DEFINITION. The instructions: one constructor for each of the 13 rows of spec/opcode_table.json (8 wire frame kinds of
30_encoding R82, 5 events of R84), and the coded form in which the environment's schedule holds them. -/

namespace Sys2Proof

/-- One constructor per row of the opcode table. Inbound frames and responses carry every field of their encoding, the
trailer among them: whether a trailer matches is for the handlers to find out (R125, R142), not for the decoder. -/
inductive Instr where
  /-- SERVO: the 14 channel pairs (each `lo | hi << 8`, upper four bits included) and the trailer (R72). -/
  | servo (pairs : List Word16) (ck : Word16)
  /-- Q.PROBE: sensor index nibble and trailer (R75). -/
  | qProbe (i : BitVec 4) (ck : Word16)
  /-- Q.TYPE (R75). -/
  | qType (i : BitVec 4) (ck : Word16)
  /-- Q.VALUE (R75). -/
  | qValue (i : BitVec 4) (ck : Word16)
  /-- R.PROBE: the echo of a probe query (R77). -/
  | rProbe (i : BitVec 4) (ck : Word16)
  /-- R.TYPE: type code and trailer (R78). -/
  | rType (i : BitVec 4) (t : Word16) (ck : Word16)
  /-- R.VALUE2: the low 16 bits of the value, and the trailer (R79). -/
  | rValue2 (i : BitVec 4) (v : Word16) (ck : Word16)
  /-- R.VALUE4: the 32-bit value, and the trailer (R79). -/
  | rValue4 (i : BitVec 4) (v : Word32) (ck : Word16)
  /-- EV_RST: power-on or watchdog reset (R250, R251). -/
  | evRst
  /-- EV_RX(b): a byte has been received (R120). -/
  | evRx (b : Byte)
  /-- EV_TXE: the transmit data register is empty (R149). -/
  | evTxe
  /-- EV_TC: transmission complete (R150). -/
  | evTc
  /-- EV_TMO: the one-shot reversion timer has expired (R151). -/
  | evTmo
  deriving DecidableEq, Repr

/-- The coded form of an instruction: an 11-bit event pattern (R84), or the bytes of a frame in wire order with their
direction (R71: the Q.PROBE and R.PROBE rows have the same bytes and differ in direction only). -/
inductive Code where
  | event (w : BitVec 11)
  | inbound (bytes : List Byte)
  | outbound (bytes : List Byte)
  deriving DecidableEq, Repr

/-- Why a coded input is no row of the opcode table (30_encoding R82 to R84). No reason stops the block: what it does with such
an input is `runUndecoded` in Machine/Frames.lean. -/
inductive DecodeError where
  /-- An event code 101 to 111: "unused". -/
  | unusedEventCode
  /-- A non-zero operand field on an event that takes no operand. -/
  | strayOperand
  /-- An inbound frame whose first bytes are no row of the table. -/
  | unknownInbound
  /-- An outbound frame whose first bytes are no row of the table. -/
  | unknownOutbound
  deriving DecidableEq, Repr

/-- One entry of the environment's schedule (R37 d, R215): one coded input, or events that are due at the same instant and
are handled in the order of R216. -/
inductive Slot where
  | one (c : Code)
  | due (events : List (BitVec 11))
  deriving DecidableEq, Repr

end Sys2Proof
end

