-- ==== Sys2Proof/Machine/State.lean ====
section
/-! DEFINITION. The block's state as plain data (10_state R20 to R41), the reasons a step can stop, and the state after
reset (R39). -/

namespace Sys2Proof.Machine

/-- `LS`, the Link State (R21). -/
inductive LinkState where
  | fdl | hdl | hdt | hdtr
  deriving DecidableEq, Repr

/-- `FA`, the Frame Accumulator (R22): header matched, position counter, previous byte, running checksum. -/
structure FrameAcc where
  sync : Bool
  n : Nat
  prev : Byte
  ck : Word16
  deriving DecidableEq, Repr

/-- `RB`, the Response Buffer, with its length and drain cursors (R26). -/
structure RespBuf where
  data : Vector Byte Config.rbCap
  len : Nat
  pos : Nat
  deriving DecidableEq, Repr

/-- `LINECTL`, the line control register: bits 0 to 4 in this order (R28). -/
structure LineCtl where
  hd : Bool
  re : Bool
  te : Bool
  txeie : Bool
  tcie : Bool
  deriving DecidableEq, Repr

/-- `FILT[k]`, one sensor's filter: accumulator at 7 bits of extra precision, and whether it has been seeded (R30). -/
structure Filter where
  acc : Word32
  seeded : Bool
  deriving DecidableEq, Repr

/-- What the block does to a collaborator, in the order it does it (R10, R11, R57 O3). -/
inductive IoOp where
  /-- `TxIdle()`: the idle frame. -/
  | idle
  /-- `TxPush(b)`. -/
  | byte (b : Byte)
  /-- `PwmWrite(n, d)`. -/
  | pwm (n : Fin 7) (d : Word16)
  /-- `PinWrite(n, v)`. -/
  | pin (n : Fin 3) (v : Bool)
  /-- `WdgKick()`. -/
  | kick
  /-- `TimerArm()`. -/
  | arm
  /-- `AdcRead(chan)`: the acquisition request. -/
  | adc (chan : Nat)
  /-- A write of the line control register, with the value written. -/
  | line (v : LineCtl)
  deriving DecidableEq, Repr

/-- A symbol of `WIRE_OUT`: `IDLE` or `BYTE(b)` (R11, R86). -/
inductive WireSym where
  | idle
  | byte (b : Byte)
  deriving DecidableEq, Repr

/-- A symbol of `WDG_OUT` (R10). -/
inductive WdgSym where
  | kick
  deriving DecidableEq, Repr

/-- The error conditions of R211 and R214. The first seven are the `Drop` reasons; `stall` is the eighth. -/
inductive ErrorKind where
  | cksum | resync | len | idx0 | absent | cmd | width | stall
  deriving DecidableEq, Repr

/-- What the acquisition peripheral answers to one request: a raw value, or never (R102, R107). -/
inductive AdcReply where
  | value (raw : BitVec 24)
  | never
  deriving DecidableEq, Repr

/-- The state. The registers of R20 come first; `cfg` holds `REG` and the open parameters, which no event writes (R12, R29);
the rest is the model's own: the stalled handler (R107), the chronological trace that `WIRE_OUT` and `WDG_OUT` are views of
(R11), the drop log (R211), the scripted and the drawn answers of the acquisition peripheral (R85, R102) and the
environment's schedule of events (R37 d). -/
structure State where
  ls : LinkState
  fa : FrameAcc
  tf : Vector Chan12 Config.nch
  cvs : Vector Int Config.nch
  qcmd : Byte
  rb : RespBuf
  tmrArmed : Bool
  linectl : LineCtl
  filt : Vector Filter Config.nsens
  ramp : Vector Int 4
  duty : Vector Word16 Config.npwm
  dout : Vector Bool 3
  pumpActive : Bool
  driveSel : Fin 3
  cfg : ConfigRec
  stall : Option Nat
  io : List IoOp
  drops : List ErrorKind
  adc : List AdcReply
  draws : Nat
  inbox : List Slot
  deriving DecidableEq, Repr

/-- Reasons a step stops with a fault. -/
inductive Fault where
  /-- The EV_TXE handler was to push `RB.data[RB.pos]` with `RB.pos` outside the buffer's eight bytes. Raised by the EV_TXE
  handler and by a response frame's transmission. Safe: the spec says that this access never occurs (20_memory R60,
  10_state R40 I3) and gives it no effect. -/
  | responseIndex
  deriving DecidableEq, Repr

/-- Reasons a step is refused. -/
inductive Refusal where
  /-- The instruction's arm of `exec` has no meaning yet; raised by `exec` only. Safe: nothing is claimed of it. -/
  | notModelled (mnemonic : String)
  /-- The configuration violates the constraints column of 00_scope R6, or R179's on `DM(0)`, or one of the model's own bounds on
  it; raised by `step`. Safe: the spec says to refuse the first (93_implementation_defined U17, U8), and of the others nothing is
  claimed (notes/assumptions/5.md and 25.md). -/
  | badConfiguration
  deriving DecidableEq, Repr

/-- The machine right after reset: the table of R39 with the reference configuration. A register that R39 calls
"unspecified" holds zero here (DESIGN CHOICE, notes/assumptions/1.md; unsafe). -/
def State.reset : State where
  ls := .fdl
  fa := ⟨false, 0, 0x00, 0⟩
  tf := Vector.replicate 14 0
  cvs := Vector.replicate 14 0
  qcmd := 0
  rb := ⟨Vector.replicate 8 0, 0, 0⟩
  tmrArmed := false
  linectl := ⟨false, true, false, false, false⟩
  filt := Vector.replicate 3 ⟨0, false⟩
  ramp := Vector.replicate 4 0
  duty := Vector.replicate 7 0
  dout := Vector.replicate 3 false
  pumpActive := false
  driveSel := 0
  cfg := rc
  stall := none
  io := []
  drops := []
  adc := []
  draws := 0
  inbox := []

end Sys2Proof.Machine
end

