-- ==== Sys2Proof/WellFormed.lean ====
section
/-! DEFINITION. Which terms of `Instr` an encoding can hold. All operands but one have the exact width of their field; the
one check left is that a SERVO frame has 14 channel pairs (30_encoding R72). -/

namespace Sys2Proof

/-- A SERVO frame carries exactly `NCH` = 14 channel pairs (R72); every other row's operands are well-formed by their
types. A wrong trailer, a reserved index or a header pattern inside a frame is no ill-formed term: the block receives such
frames and drops them (R83). -/
def Instr.wellFormed (i : Instr) : Bool :=
  match i with
  | .servo pairs _ => pairs.length == Config.nch
  | .qProbe _ _ => true
  | .qType _ _ => true
  | .qValue _ _ => true
  | .rProbe _ _ => true
  | .rType _ _ _ => true
  | .rValue2 _ _ _ => true
  | .rValue4 _ _ _ => true
  | .evRst => true
  | .evRx _ => true
  | .evTxe => true
  | .evTc => true
  | .evTmo => true

end Sys2Proof
end

