-- ==== Sys2Proof/Decode.lean ====
section
/-! DEFINITION. The decoder, total on every coded input and rejecting by name, and after it the encoder (30_encoding R71 to
R84, spec/opcode_table.json). -/

namespace Sys2Proof

open Machine

/-! ### The decoder -/

/-- An 11-bit event pattern: `eee` and `bbbbbbbb`, the latter zero for every event but EV_RX (R84). -/
def decodeEvent (w : BitVec 11) : Except DecodeError Instr :=
  let code := w.extractLsb' 8 3
  let operand := w.extractLsb' 0 8
  if code = 1 then .ok (.evRx operand)
  else if 4 < code then .error .unusedEventCode
  else if operand ≠ 0 then .error .strayOperand
  else if code = 0 then .ok .evRst
  else if code = 2 then .ok .evTxe
  else if code = 3 then .ok .evTc
  else .ok .evTmo

/-- An inbound frame (R82): a query by its length byte and command nibble, a SERVO frame by its header and length. Whether
the trailer matches is left to the handlers. -/
def decodeInbound (bytes : List Byte) : Except DecodeError Instr :=
  match bytes with
  | [len, cmd, c0, c1] =>
    if len = Config.qlen then
      if cmdOp cmd = Config.cmdProbe then .ok (.qProbe (cmdIndex cmd) (pair c0 c1))
      else if cmdOp cmd = Config.cmdType then .ok (.qType (cmdIndex cmd) (pair c0 c1))
      else if cmdOp cmd = Config.cmdValue then .ok (.qValue (cmdIndex cmd) (pair c0 c1))
      else .error .unknownInbound
    else .error .unknownInbound
  | h0 :: h1 :: body =>
    if h0 = Config.hdr0 ∧ h1 = Config.hdr1 ∧ body.length = 30 then
      .ok (.servo (pairsOf (body.take 28)) ((pairsOf (body.drop 28)).headD 0))
    else .error .unknownInbound
  | _ => .error .unknownInbound

/-- An outbound frame (R82): the length is in the first byte, the kind in it and the command nibble. -/
def decodeOutbound (bytes : List Byte) : Except DecodeError Instr :=
  match bytes with
  | [len, cmd, c0, c1] =>
    if len = 0x04 ∧ cmdOp cmd = Config.cmdProbe then .ok (.rProbe (cmdIndex cmd) (pair c0 c1))
    else .error .unknownOutbound
  | [len, cmd, v0, v1, c0, c1] =>
    if len = 0x06 ∧ cmdOp cmd = Config.cmdType then .ok (.rType (cmdIndex cmd) (pair v0 v1) (pair c0 c1))
    else if len = 0x06 ∧ cmdOp cmd = Config.cmdValue then .ok (.rValue2 (cmdIndex cmd) (pair v0 v1) (pair c0 c1))
    else .error .unknownOutbound
  | [len, cmd, v0, v1, v2, v3, c0, c1] =>
    if len = 0x08 ∧ cmdOp cmd = Config.cmdValue then
      .ok (.rValue4 (cmdIndex cmd) (word32Of v0 v1 v2 v3) (pair c0 c1))
    else .error .unknownOutbound
  | _ => .error .unknownOutbound

/-- The instruction of a coded input. -/
def decode (c : Code) : Except DecodeError Instr :=
  match c with
  | .event w => decodeEvent w
  | .inbound bytes => decodeInbound bytes
  | .outbound bytes => decodeOutbound bytes

/-! ### The encoder -/

/-- An event pattern from its code and operand (R84). -/
def eventWord (code : BitVec 3) (operand : Byte) : BitVec 11 :=
  (code.setWidth 11 <<< 8) ||| operand.setWidth 11

/-- The 32 bytes of a SERVO frame (R72). -/
def servoBytes (pairs : List Word16) (ck : Word16) : List Byte :=
  Config.hdr0 :: Config.hdr1 :: (pairBytes pairs ++ bytes16 ck)

/-- The 4 bytes of a query (R75). -/
def queryBytes (op i : BitVec 4) (ck : Word16) : List Byte :=
  Config.qlen :: cmdByte op i :: bytes16 ck

/-- The bytes of a response frame: length, command, value field, trailer (R77 to R80). -/
def responseFrame (op i : BitVec 4) (val : List Byte) (ck : Word16) : List Byte :=
  BitVec.ofNat 8 (val.length + 4) :: cmdByte op i :: (val ++ bytes16 ck)

/-- The coded form of an instruction. -/
def encode (i : Instr) : Code :=
  match i with
  | .servo pairs ck => .inbound (servoBytes pairs ck)
  | .qProbe i ck => .inbound (queryBytes Config.cmdProbe i ck)
  | .qType i ck => .inbound (queryBytes Config.cmdType i ck)
  | .qValue i ck => .inbound (queryBytes Config.cmdValue i ck)
  | .rProbe i ck => .outbound (responseFrame Config.cmdProbe i [] ck)
  | .rType i t ck => .outbound (responseFrame Config.cmdType i (bytes16 t) ck)
  | .rValue2 i v ck => .outbound (responseFrame Config.cmdValue i (bytes16 v) ck)
  | .rValue4 i v ck => .outbound (responseFrame Config.cmdValue i (bytes32 v) ck)
  | .evRst => .event (eventWord 0 0)
  | .evRx b => .event (eventWord 1 b)
  | .evTxe => .event (eventWord 2 0)
  | .evTc => .event (eventWord 3 0)
  | .evTmo => .event (eventWord 4 0)

/-! ### Words as spec/opcode_table.json numbers them -/

/-- The `n` low bytes of `w`, most significant first. -/
def topFirst (w : Nat) : Nat → List Byte
  | 0 => []
  | n + 1 => BitVec.ofNat 8 (w / 256 ^ n) :: topFirst w n

/-- The bytes of `n` 16-bit words, the first word in the lowest bits, each with its first byte in the high half. -/
def wordsFirst (w : Nat) : Nat → List Byte
  | 0 => []
  | n + 1 => BitVec.ofNat 8 (w / 256) :: BitVec.ofNat 8 w :: wordsFirst (w / 65536) n

/-- `bytes` followed by zeros up to `n` bytes. -/
def padTo (n : Nat) (bytes : List Byte) : List Byte := bytes ++ List.replicate (n - bytes.length) 0

/-- The coded input whose bits are `w`, numbered as the opcode table numbers them. Rows of up to 64 bits are one number with
byte 0 at the top, the eleven event bits at the bottom of 16. The SERVO row numbers the frame by 16-bit words with byte 0 in
the high half of each ("first 16 bits of the 256 (bytes 0 and 1, wire order, byte 0 in the high half)"), the first word
lowest. A word of a direction-less 4-byte row is an inbound frame: Q.PROBE and R.PROBE have the same bits. -/
def codeOfWord (nbits w : Nat) : Code :=
  if nbits ≤ 16 then
    if w < 2048 then .event (BitVec.ofNat 11 w) else .inbound (padTo 32 (topFirst w 2))
  else if nbits ≤ 32 then .inbound (topFirst w 4)
  else if nbits ≤ 48 then .outbound (topFirst w 6)
  else if nbits ≤ 64 then .outbound (topFirst w 8)
  else .inbound (padTo 32 (wordsFirst w (nbits / 16)))

/-- The instruction the decoder reads from a word of the opcode table. -/
def decodeTableWord (nbits w : Nat) : Option Instr :=
  match decode (codeOfWord nbits w) with
  | .ok i => some i
  | .error _ => none

end Sys2Proof
end

