-- ==== Sys2Proof/Machine/Ops.lean ====
section
/-! DEFINITION. The named operations over the state: the primitives of 00_scope R10, the parse-state reset (R128), raising
`Drop` and `Stall` (the block's exceptions, 60_exceptions R210 to R214), the publish (R126) and reset (R251). -/

namespace Sys2Proof.Machine

/-! ### The observable traces (R11), views of the one chronological trace -/

/-- The symbol an operation puts on the wire. -/
def IoOp.wire? : IoOp → Option WireSym
  | .idle => some .idle
  | .byte b => some (.byte b)
  | _ => none

/-- The symbol an operation appends to `WDG_OUT`. -/
def IoOp.wdg? : IoOp → Option WdgSym
  | .kick => some .kick
  | _ => none

/-- The channel of an acquisition request. -/
def IoOp.adc? : IoOp → Option Nat
  | .adc c => some c
  | _ => none

/-- Whether an operation is a timer-arm request. -/
def IoOp.isArm : IoOp → Bool
  | .arm => true
  | _ => false

/-- `WIRE_OUT` (R20). -/
def State.wireOut (s : State) : List WireSym := s.io.filterMap IoOp.wire?

/-- `WDG_OUT` (R20). -/
def State.wdgOut (s : State) : List WdgSym := s.io.filterMap IoOp.wdg?

/-- The acquisition requests in order (R11). -/
def State.adcRequests (s : State) : List Nat := s.io.filterMap IoOp.adc?

/-- The number of timer-arm requests (R11). -/
def State.armRequests (s : State) : Nat := s.io.countP IoOp.isArm

/-- `LINECTL` as the 5-bit register of R28. -/
def LineCtl.toBits (v : LineCtl) : BitVec 5 :=
  BitVec.ofBool v.tcie ++ BitVec.ofBool v.txeie ++ BitVec.ofBool v.te ++ BitVec.ofBool v.re ++ BitVec.ofBool v.hd

/-! ### Primitives (R10) -/

/-- Append one operation on a collaborator to the trace (R57 O3). -/
def emit (op : IoOp) (s : State) : State := { s with io := s.io ++ [op] }

/-- `TxPush(b)`: hand a byte to the transmitter. -/
def txPush (b : Byte) (s : State) : State := emit (.byte b) s

/-- `TxIdle()`: the idle frame of a transmitter enabled after being disabled (R86). -/
def txIdle (s : State) : State := emit .idle s

/-- `TimerArm()`: arm the one-shot reversion timer; it replaces a running interval (R154, R220). -/
def timerArm (s : State) : State := emit .arm { s with tmrArmed := true }

/-- `PwmWrite(n, d)`. -/
def pwmWrite (n : Fin 7) (d : Word16) (s : State) : State := emit (.pwm n d) { s with duty := s.duty.set n d }

/-- `PinWrite(n, v)`. -/
def pinWrite (n : Fin 3) (v : Bool) (s : State) : State := emit (.pin n v) { s with dout := s.dout.set n v }

/-- `WdgKick()`. -/
def wdgKick (s : State) : State := emit .kick s

/-- A write of the line control register (R28). -/
def lineWrite (v : LineCtl) (s : State) : State := emit (.line v) { s with linectl := v }

/-- `LINECTL.HD <- v`. -/
def setHd (v : Bool) (s : State) : State := lineWrite { s.linectl with hd := v } s

/-- `LINECTL.RE <- v`. -/
def setRe (v : Bool) (s : State) : State := lineWrite { s.linectl with re := v } s

/-- `LINECTL.TE <- v`. -/
def setTe (v : Bool) (s : State) : State := lineWrite { s.linectl with te := v } s

/-- `LINECTL.TXEIE <- v`. -/
def setTxeie (v : Bool) (s : State) : State := lineWrite { s.linectl with txeie := v } s

/-- `LINECTL.TCIE <- v`. -/
def setTcie (v : Bool) (s : State) : State := lineWrite { s.linectl with tcie := v } s

/-- `LS <- v`, the sequencer's state change (R10, R36). -/
def setLs (v : LinkState) (s : State) : State := { s with ls := v }

/-- `FaReset()` (R128); `FA.ck` is left as it is. -/
def faReset (s : State) : State := { s with fa := { s.fa with sync := false, n := 0, prev := 0x00 } }

/-- The publish: `CVS[j] <- TF[j]` for `j = 0..13` as one step (R126, R54 b); each element holds 0..4095 (R24). -/
def publish (s : State) : State := { s with cvs := s.tf.map fun v => (v.toNat : Int) }

/-! ### Taking an exception: `raise Drop`, `raise Stall` -/

/-- `raise Drop(reason)`: the rest of the handler is abandoned and nothing changes beyond the parse state that the raising
rule has reset (R10, R212); the reason goes into the model's own drop log, which the hardware does not have (R211). -/
def raiseDrop (reason : ErrorKind) (s : State) : State := { s with drops := s.drops ++ [reason] }

/-- `raise Stall`: the handler waits for ever for the acquisition on `chan` (R107, R214). -/
def raiseStall (chan : Nat) (s : State) : State := { s with stall := some chan }

/-- The codes of R211 and R214. -/
def ErrorKind.code : ErrorKind → Nat
  | .cksum => 1
  | .resync => 2
  | .len => 3
  | .idx0 => 4
  | .absent => 5
  | .cmd => 6
  | .width => 7
  | .stall => 8

/-- The three categories of R210. -/
inductive ErrorCategory where
  | framing | protocol | hardware
  deriving DecidableEq, Repr

/-- The category of an error condition (R210, R211). -/
def ErrorKind.category : ErrorKind → ErrorCategory
  | .cksum | .resync | .len => .framing
  | .idx0 | .absent | .cmd | .width => .protocol
  | .stall => .hardware

/-! ### The acquisition peripheral (R102) -/

/-- Take the environment's next answer: the head of the script, or else a draw that nothing constrains (R102, D20). -/
def nextReply (s : State) : AdcReply × State :=
  match s.adc with
  | r :: rest => (r, { s with adc := rest })
  | [] =>
    (match Config.adcDraw s.draws with
      | some raw => .value raw
      | none => .never,
     { s with draws := s.draws + 1 })

/-- `AdcRead(chan)`: one observable request, one answer (R102, R54 d). A value is an unsigned number of `RAW_BITS` bits; `none`
is "never returns". -/
def adcRead (chan : Nat) (s : State) : Option Nat × State :=
  let (reply, s') := nextReply (emit (.adc chan) s)
  match reply with
  | .value raw => (some (raw.toNat % 2 ^ s.cfg.rawBits), s')
  | .never => (none, s')

/-! ### Reset (R251) -/

/-- EV_RST: every register takes its value of R39, the traces restart empty, a stalled handler is abandoned. A register
that R39 calls "unspecified" takes a free value (U1, U2). The configuration is constant (R252); the environment's schedule
and script are not the block's to reset. -/
def resetState (s : State) : State :=
  let free := Config.resetBits s.draws
  { ls := .fdl
    fa := ⟨false, 0, 0x00, (free 0).setWidth 16⟩
    tf := Vector.ofFn fun k => (free (10 + k.val)).setWidth 12
    cvs := Vector.ofFn fun k => (free (30 + k.val)).toInt
    qcmd := (free 1).setWidth 8
    rb := ⟨Vector.ofFn fun k => (free (50 + k.val)).setWidth 8, 0, 0⟩
    tmrArmed := false
    linectl := ⟨false, true, false, false, false⟩
    filt := Vector.ofFn fun k => ⟨free (60 + k.val), false⟩
    ramp := Vector.replicate 4 0
    duty := Vector.ofFn fun k => (free (70 + k.val)).setWidth 16
    dout := Vector.ofFn fun k => (free (80 + k.val)).getLsbD 0
    pumpActive := (free 2).getLsbD 0
    driveSel := Fin.ofNat 3 (free 3).toNat
    cfg := s.cfg
    stall := none
    io := []
    drops := []
    adc := s.adc
    draws := s.draws + 1
    inbox := s.inbox }

end Sys2Proof.Machine
end

