-- ==== Sys2Proof/Machine/Flags.lean ====
section
/-! DEFINITION. Flag computations: the enabling condition of every event (60_exceptions R215), the line control value of every
link state (10_state R28), and the mixer's cached flags (R34, R179, R186). -/

namespace Sys2Proof.Machine

/-- The line control value of each link state: the second table of R28. -/
def lineRow (ls : LinkState) : LineCtl :=
  match ls with
  | .fdl => ⟨false, true, false, false, false⟩
  | .hdl => ⟨true, true, false, false, false⟩
  | .hdt => ⟨true, false, true, true, false⟩
  | .hdtr => ⟨true, false, true, false, true⟩

/-- EV_RX is deliverable when the receiver is enabled (R215). -/
def rxEnabled (s : State) : Bool := s.linectl.re

/-- EV_TXE is deliverable when its interrupt is enabled (R215). -/
def txeEnabled (s : State) : Bool := s.linectl.txeie

/-- EV_TC is deliverable when its interrupt is enabled (R215). -/
def tcEnabled (s : State) : Bool := s.linectl.tcie

/-- EV_TMO is deliverable while the timer is armed (R215). -/
def tmoEnabled (s : State) : Bool := s.tmrArmed

/-- No handler is waiting for an acquisition: only then is an event other than EV_RST taken (R107, R214). -/
def idle (s : State) : Bool := s.stall.isNone

/-- `PUMP_ACTIVE <- (RAMP[0] != 0)` (R186). -/
def setPumpActive (s : State) : State := { s with pumpActive := s.ramp[0] != 0 }

/-- `DRIVE_SEL <- mode` (R179). -/
def setDriveSel (mode : Fin 3) (s : State) : State := { s with driveSel := mode }

end Sys2Proof.Machine
end

