-- ==== Sys2Proof/Machine/Sensor.lean ====
section
/-! DEFINITION. The Sensor Registry and the Filtered Sensor Source (40_sensor R100 to R109). `k` is the 0-based registry
index. -/

namespace Sys2Proof.Machine

/-- `SensorType(k)`: the type code, or 0 if the index is out of range or the sensor is absent (R100). -/
def sensorType (cfg : ConfigRec) (k : Nat) : Word16 :=
  if h : k < Config.nsens then
    if cfg.reg[k].chan = 0 then 0 else cfg.reg[k].type
  else 0

/-- The accumulator after one sample: the seed `raw << 7`, or `raw + acc - (acc >> 7)` (R103, unsigned 32-bit). -/
def filterNext (f : Filter) (raw : Nat) : Filter :=
  if f.seeded then ⟨BitVec.ofNat 32 raw + f.acc - f.acc >>> Config.fshift, true⟩
  else ⟨BitVec.ofNat 32 raw <<< Config.fshift, true⟩

/-- What a filter reports: `acc >> 7` (R103). -/
def filterReport (f : Filter) : Nat := (f.acc >>> Config.fshift).toNat

/-- `FilterUpdate(k, raw)`: one sample into one sensor's filter, and its report; the others are not touched (R103, R109). -/
def filterUpdate (k : Fin 3) (raw : Nat) (s : State) : Nat × State :=
  let f := filterNext s.filt[k] raw
  (filterReport f, { s with filt := s.filt.set k f })

/-- What `SensorValue` comes to: a value, "no value" for an absent sensor (R106), or a conversion that never completes
(R107). -/
inductive Reading where
  | value (v : Word32)
  | noValue
  | stalled
  deriving DecidableEq, Repr

/-- `SensorValue(k)`: one acquisition, one filter update, the conversion (R101). An absent sensor touches no hardware
(R106). When the acquisition never returns the handler stalls with the filter not updated (R107, R214). -/
def sensorValue (k : Fin 3) (s : State) : Reading × State :=
  if s.cfg.reg[k].chan = 0 then (.noValue, s)
  else
    match adcRead s.cfg.reg[k].chan s with
    | (none, s1) => (.stalled, raiseStall s.cfg.reg[k].chan s1)
    | (some raw, s1) =>
      let (f, s2) := filterUpdate k raw s1
      (.value (convert s.cfg.conv[k] f), s2)

end Sys2Proof.Machine
end

