-- ==== Sys2Proof/Machine/LinkQuery.lean ====
section
/-! DEFINITION. The half-duplex states and the timeout (42_link_query R140 to R156). -/

namespace Sys2Proof.Machine

/-! ### Responses -/

/-- Put a response into the buffer from index 0 on and set its length (R144, R147). -/
def fillResponse (bytes : List Byte) (s : State) : State :=
  { s with rb := { s.rb with
      data := Vector.ofFn fun j => bytes.getD j.val s.rb.data[j]
      len := bytes.length } }

/-- The bytes of the generic response: length, command, value bytes, checksum trailer (R80, R147). -/
def responseBytes (c : Byte) (val : List Byte) : List Byte :=
  let body := BitVec.ofNat 8 (val.length + 4) :: c :: val
  body ++ bytes16 (checksum body)

/-- `BuildResp(c, val)` (R147). -/
def buildResp (c : Byte) (val : List Byte) (s : State) : State := fillResponse (responseBytes c val) s

/-- `StartTx()` (R148): receiver off, transmitter on with its idle frame, transmit-empty event on. -/
def startTx (s : State) : State :=
  setLs .hdt (setTxeie true (txIdle (setTe true (setRe false { s with rb := { s.rb with pos := 0 } }))))

/-! ### Executing a query -/

/-- `Probe(c, w)`: the exact four query bytes (R144). -/
def probe (c : Byte) (w : Word16) (s : State) : State :=
  fillResponse [Config.qlen, c, lowByte w, highByte w] s

/-- `Type(c, t)` (R145). -/
def typeQuery (c : Byte) (t : Word16) (s : State) : State := buildResp c (bytes16 t) s

/-- The value bytes of a response of declared width `wd`; the 2-byte form keeps the low 16 bits (R146, D13). -/
def valueBytes (wd : Byte) (v : Word32) : List Byte :=
  if wd = 2 then bytes16 (v.setWidth 16) else bytes32 v

/-- `Value(c, k, t)` and the `StartTx` that follows it (R146, R143): the width is tested before any acquisition; a stalled
acquisition leaves the handler waiting, with nothing built. "No value" is out of reach here, since `SensorType` has been
tested (R106). -/
def valueQuery (c : Byte) (k : Fin 3) (t : Word16) (s : State) : State :=
  if typeWidth t = 2 ∨ typeWidth t = 4 then
    match sensorValue k s with
    | (.value v, s1) => startTx (buildResp c (valueBytes (typeWidth t) v) s1)
    | (.noValue, s1) => raiseDrop .absent s1
    | (.stalled, s1) => s1
  else raiseDrop .width s

/-- `QueryExec(c, w)` (R143): index 0, existence, command, width, in that order (R225). -/
def queryExec (c : Byte) (w : Word16) (s : State) : State :=
  let i := (cmdIndex c).toNat
  if i = 0 then raiseDrop .idx0 s
  else
    let t := sensorType s.cfg (i - 1)
    if t = 0 then raiseDrop .absent s
    else if cmdOp c = Config.cmdProbe then startTx (probe c w s)
    else if cmdOp c = Config.cmdType then startTx (typeQuery c t s)
    else if cmdOp c = Config.cmdValue then valueQuery c (Fin.ofNat 3 (i - 1)) t s
    else raiseDrop .cmd s

/-! ### EV_RX in HDL -/

/-- Position 0, the length byte (R140). -/
def rxLength (b : Byte) (s : State) : State :=
  if b = Config.qlen then
    { s with fa := { s.fa with ck := Config.ckInit - Config.qlen.setWidth 16, n := 1 } }
  else raiseDrop .len s

/-- Position 1, the command byte (R141). -/
def rxCommand (b : Byte) (s : State) : State :=
  { s with qcmd := b, fa := { s.fa with ck := s.fa.ck - b.setWidth 16, n := 2 } }

/-- Position 2, the trailer's low byte (R142). -/
def rxTrailerLow (b : Byte) (s : State) : State := { s with fa := { s.fa with prev := b, n := 3 } }

/-- Position 3, the trailer's high byte: the query attempt is over in both cases (R142). -/
def rxTrailerHigh (b : Byte) (s : State) : State :=
  let w := pair s.fa.prev b
  let s1 := { s with fa := { s.fa with n := 0 } }
  if w = s.fa.ck then queryExec s.qcmd w s1 else raiseDrop .cksum s1

/-- EV_RX(b) in HDL, by position (R140 to R142). There is no position 4 (R40 I6), and no rule for it. -/
def rxQuery (b : Byte) (s : State) : State :=
  match s.fa.n with
  | 0 => rxLength b s
  | 1 => rxCommand b s
  | 2 => rxTrailerLow b s
  | 3 => rxTrailerHigh b s
  | _ => s

/-! ### EV_TXE, EV_TC, EV_TMO -/

/-- EV_TXE in HDT (R149): push one byte; the handler that pushes the last one switches to transmit-complete. -/
def txeHandler (b : Byte) (s : State) : State :=
  let s1 := txPush b s
  let s2 := { s1 with rb := { s1.rb with pos := s.rb.pos + 1 } }
  if s.rb.pos + 1 = s.rb.len then setLs .hdtr (setTcie true (setTxeie false s2)) else s2

/-- EV_TC in HDTR (R150). -/
def tcHandler (s : State) : State :=
  faReset (setLs .hdl (setRe true (setTe false (setTcie false s))))

/-- EV_TMO (R151): whatever the sub-state, back to full-duplex listening; unsent bytes are discarded (R257). -/
def tmoHandler (s : State) : State :=
  let s1 := faReset (setLs .fdl (lineWrite ⟨false, true, false, false, false⟩ { s with tmrArmed := false }))
  { s1 with rb := { s1.rb with len := 0, pos := 0 } }

end Sys2Proof.Machine
end

