-- ==== Sys2Proof/Machine/Mixer.lean ====
section
/-! DEFINITION. The Channel Mixer (43_mixer R170 to R194): switch and valve decode, combination, ramp, duties, outputs. -/

namespace Sys2Proof.Machine

/-! ### Step 1: switches -/

/-- `Switch3(v)`: both comparisons strict, no memory (R171). -/
def switch3 (cfg : ConfigRec) (v : Int) : Fin 3 :=
  if v < cfg.swLo then 0 else if v > cfg.swHi then 2 else 1

/-- The drive mode: the decoded position of the switch that `DRIVE_SW` names (R172). -/
def driveMode (cfg : ConfigRec) (cvs : Vector Int 14) : Fin 3 :=
  match cfg.driveSw with
  | .ch6 => switch3 cfg cvs[6]
  | .ch7 => switch3 cfg cvs[7]

/-- The position of the other, auxiliary switch (R172). -/
def auxSwitch (cfg : ConfigRec) (cvs : Vector Int 14) : Fin 3 :=
  match cfg.driveSw with
  | .ch6 => switch3 cfg cvs[7]
  | .ch7 => switch3 cfg cvs[6]

/-! ### Steps 2 and 3: valves and drives -/

/-- `Valve(x, trim, dm)`: trim, centre, and either the raw centred value or the curve on the magnitude with the sign
restored (R173, R174, R192). -/
def valve (cfg : ConfigRec) (x trim : Int) (dm : Bool) : Int :=
  let o := x - trim - Config.center
  if dm then o
  else if o < 0 then -(vcurve cfg o.natAbs : Int) else (vcurve cfg o.natAbs : Int)

/-- A drive channel: centre subtraction, nothing else (R177). -/
def drive (x : Int) : Int := x - Config.center

/-- The decoded valve and drive values (R175, R177). The mixer reads these six channels and the two switches (R178). -/
def decodeSticks (cfg : ConfigRec) (cvs : Vector Int 14) (mode : Fin 3) : MixIn where
  vB := valve cfg cvs[cfg.chBucket] cfg.trim[0] cfg.dm[mode].bucket
  vM := valve cfg cvs[cfg.chBoom] cfg.trim[1] cfg.dm[mode].boom
  vS := valve cfg cvs[cfg.chStick] cfg.trim[2] cfg.dm[mode].stick
  d0 := drive cvs[cfg.chDrv0]
  d1 := drive cvs[cfg.chDrv1]
  d2 := drive cvs[cfg.chDrv2]

/-! ### Step 4: combination -/

/-- What `MIXF` returns (R180). -/
structure MixOut where
  tp : Int
  t0 : Int
  t1 : Int
  t2 : Int
  cB : Int
  cM : Int
  cS : Int
  deriving DecidableEq, Repr

/-- `MIXF(mode, …)` (R180): the pump target is never negative. -/
def mixTargets (cfg : ConfigRec) (mode : Fin 3) (v : MixIn) : MixOut :=
  let row := cfg.mixf[mode]
  { tp := (mixEval v row.tp).toNat
    t0 := mixEval v row.t0
    t1 := mixEval v row.t1
    t2 := mixEval v row.t2
    cB := mixEval v row.cB
    cM := mixEval v row.cM
    cS := mixEval v row.cS }

/-! ### Step 5: ramp -/

/-- `Ramp(target, prev, step)` (R182). -/
def rampTo (cfg : ConfigRec) (target prev : Int) (step : Nat) : Int :=
  if snaps cfg target prev then target
  else prev + clamp (target - prev) (-(step : Int)) step

/-- The ramp of all four outputs (R184). -/
def rampAll (cfg : ConfigRec) (m : MixOut) (r : Vector Int 4) : Vector Int 4 :=
  #v[rampTo cfg m.tp r[0] cfg.pumpStep, rampTo cfg m.t0 r[1] cfg.drvStep,
     rampTo cfg m.t1 r[2] cfg.drvStep, rampTo cfg m.t2 r[3] cfg.drvStep]

/-! ### Step 6: duties -/

/-- A duty as the 16-bit compare register takes it (R20, R32). -/
def dutyWord (d : Int) : Word16 := BitVec.ofInt 16 d

/-- `dP`: the kick is added whenever the ramped pump value is not zero (R186). -/
def pumpDuty (cfg : ConfigRec) (r : Int) : Int :=
  if r != 0 then clamp (Config.center + cfg.pumpKick + r) cfg.pumpDutyMin cfg.pumpDutyMax
  else cfg.pumpOffDuty

/-- `dD[j]` (R187). -/
def driveDuty (cfg : ConfigRec) (r : Int) : Int :=
  clamp (Config.center + r) cfg.drvDutyMin cfg.drvDutyMax

/-- `dV[j]` (R187). -/
def valveDuty (cfg : ConfigRec) (c : Int) : Int :=
  clamp (Config.center + c) cfg.valveDutyMin cfg.valveDutyMax

/-- The duty of each output (R186, R187), from the ramp memory just written and the valve commands, which are not ramped. -/
def outputDuty (cfg : ConfigRec) (r : Vector Int 4) (m : MixOut) (o : PwmOutput) : Int :=
  match o with
  | .bucket => valveDuty cfg m.cB
  | .boom => valveDuty cfg m.cM
  | .stick => valveDuty cfg m.cS
  | .pump => pumpDuty cfg r[0]
  | .drive0 => driveDuty cfg r[1]
  | .drive1 => driveDuty cfg r[2]
  | .drive2 => driveDuty cfg r[3]

/-- The duty of PWM register `n`: that of the output `PWM_MAP` places there (R188). -/
def registerDuty (cfg : ConfigRec) (r : Vector Int 4) (m : MixOut) (n : Fin 7) : Word16 :=
  dutyWord (outputDuty cfg r m cfg.pwmMap[n])

/-! ### Step 7: outputs -/

/-- The seven PWM writes in ascending register index (R188). -/
def pwmWriteAll (d : Fin 7 → Word16) (s : State) : State :=
  pwmWrite 6 (d 6) (pwmWrite 5 (d 5) (pwmWrite 4 (d 4) (pwmWrite 3 (d 3)
    (pwmWrite 2 (d 2) (pwmWrite 1 (d 1) (pwmWrite 0 (d 0) s))))))

/-- The three pin writes (R190). -/
def pinWriteAll (v : Fin 3 → Bool) (s : State) : State :=
  pinWrite 2 (v 2) (pinWrite 1 (v 1) (pinWrite 0 (v 0) s))

/-! ### The whole operation -/

/-- The drive mode that `CVS` selects in this state. -/
def mixMode (s : State) : Fin 3 := driveMode s.cfg s.cvs

/-- The targets and valve commands that `CVS` asks for (R175, R177, R180). -/
def mixOut (s : State) : MixOut := mixTargets s.cfg (mixMode s) (decodeSticks s.cfg s.cvs (mixMode s))

/-- The ramp memory after this invocation (R184). -/
def mixRamp (s : State) : Vector Int 4 := rampAll s.cfg (mixOut s) s.ramp

/-- The level of digital output `n` in this invocation (R190). -/
def mixPin (s : State) (n : Fin 3) : Bool :=
  doutLevel s.cfg n (mixMode s) (auxSwitch s.cfg s.cvs) ((mixRamp s)[0] != 0)

/-- `Mix()` (R193): the flags and the ramp memory, then seven PWM writes, three pin writes and the watchdog kick, in that
order (R189, R191). -/
def mix (s : State) : State :=
  let s1 := setPumpActive { setDriveSel (mixMode s) s with ramp := mixRamp s }
  wdgKick (pinWriteAll (mixPin s) (pwmWriteAll (registerDuty s.cfg (mixRamp s) (mixOut s)) s1))

end Sys2Proof.Machine
end

