-- ==== Sys2Proof/Machine/LinkServo.lean ====
section
/-! DEFINITION. The servo byte parser of Full-Duplex-Listening and the acceptance sequence (41_link_servo R121 to R131). -/

namespace Sys2Proof.Machine

/-- The checksum after the header: `0xFFFF - 0x20 - 0x40` (R72, R121). -/
def ckAfterHeader : Word16 := Config.ckInit - Config.hdr0.setWidth 16 - Config.hdr1.setWidth 16

/-- `ServoAccept()`: publish, mix, arm the timer, turn the line to half-duplex, enter HDL, reset the parser (R126). -/
def servoAccept (s : State) : State :=
  faReset (setLs .hdl (setHd true (timerArm (mix (publish s)))))

/-- `ChannelPair(k, a, b, w)`, pairs 0 to 13 (R124). -/
def channelPair (k : Nat) (a b : Byte) (s : State) : State :=
  { s with
    tf := s.tf.setIfInBounds k (channelValue (pair a b))
    fa := { s.fa with ck := ckSub s.fa.ck [a, b], n := s.fa.n + 1 } }

/-- `ChecksumPair(w)`, pair 14: the attempt is over in both cases (R125). -/
def checksumPair (w : Word16) (s : State) : State :=
  let s1 := { s with fa := { s.fa with sync := false, n := 0 } }
  if w = s.fa.ck then servoAccept s1 else raiseDrop .cksum s1

/-- A header match: a new attempt starts here; one in progress is dropped (R121, R127). -/
def headerMatch (s : State) : State :=
  let s1 := { s with fa := { s.fa with sync := true, n := 0, ck := ckAfterHeader } }
  if s.fa.sync then raiseDrop .resync s1 else s1

/-- EV_RX(b) in FDL (R121): the header test on every byte, hunting (R122), first byte of a pair (R123), pair complete. -/
def rxServo (b : Byte) (s : State) : State :=
  let a := s.fa.prev
  let s1 := { s with fa := { s.fa with prev := b } }
  if a = Config.hdr0 ∧ b = Config.hdr1 then headerMatch s1
  else if s.fa.sync = false then s1
  else if s.fa.n % 2 = 0 then { s1 with fa := { s1.fa with n := s.fa.n + 1 } }
  else if s.fa.n / 2 < Config.nch then channelPair (s.fa.n / 2) a b s1
  else checksumPair (pair a b) s1

end Sys2Proof.Machine
end

