-- ==== Sys2Proof/Machine/Events.lean ====
section
/-! DEFINITION. The five input events (30_encoding R84; 60_exceptions R215 to R218; 70_reset_and_hazards R250, R251). A
disabled event changes nothing (R215, decision D16); a stalled handler blocks every event but EV_RST (R214). -/

namespace Sys2Proof.Machine

/-- EV_RX(b): the receive handler, selected by `LS` (R120). -/
def rx (b : Byte) (s : State) : State :=
  if idle s && rxEnabled s then
    match s.ls with
    | .fdl => rxServo b s
    | .hdl => rxQuery b s
    | .hdt => s
    | .hdtr => s
  else s

/-- EV_RX of several bytes, one after the other. -/
def rxAll : List Byte → State → State
  | [], s => s
  | b :: bs, s => rxAll bs (rx b s)

/-- EV_TXE (R149): in HDT, the byte at `RB.pos`. -/
def txe (s : State) : Host.Outcome State Fault Refusal :=
  if idle s && txeEnabled s && s.ls == .hdt then
    match s.rb.data[s.rb.pos]? with
    | some b => .next (txeHandler b s)
    | none => .fault .responseIndex
  else .next s

/-- EV_TC (R150): in HDTR. -/
def tc (s : State) : State :=
  if idle s && tcEnabled s && s.ls == .hdtr then tcHandler s else s

/-- EV_TMO (R151): while the timer is armed. -/
def tmo (s : State) : State :=
  if idle s && tmoEnabled s then tmoHandler s else s

/-- EV_RST, always deliverable, in a stall too (R250, R251). -/
def execEvRst (s : State) : Host.Outcome State Fault Refusal := .next (resetState s)

/-- EV_RX(b) (R120). -/
def execEvRx (b : Byte) (s : State) : Host.Outcome State Fault Refusal := .next (rx b s)

/-- EV_TXE (R149). -/
def execEvTxe (s : State) : Host.Outcome State Fault Refusal := txe s

/-- EV_TC (R150). -/
def execEvTc (s : State) : Host.Outcome State Fault Refusal := .next (tc s)

/-- EV_TMO (R151). -/
def execEvTmo (s : State) : Host.Outcome State Fault Refusal := .next (tmo s)

end Sys2Proof.Machine
end

