-- ==== Sys2Proof/Machine/Frames.lean ====
section
/-! DEFINITION. The eight wire frame kinds (30_encoding R82). An inbound frame is its expansion into one EV_RX per byte
(R85), offered to whatever grammar the link state selects (R83 last row, R256). An outbound frame is the block's own
transmission of the response it has pending: one EV_TXE per byte, then one EV_TC (R85 `DRAIN`, R149, R150). -/

namespace Sys2Proof.Machine

/-- SERVO (R72, R121 to R127): 32 received bytes. -/
def execServo (pairs : List Word16) (ck : Word16) (s : State) : Host.Outcome State Fault Refusal :=
  .next (rxAll (servoBytes pairs ck) s)

/-- Q.PROBE (R75, R140 to R144): four received bytes. -/
def execQProbe (i : BitVec 4) (ck : Word16) (s : State) : Host.Outcome State Fault Refusal :=
  .next (rxAll (queryBytes Config.cmdProbe i ck) s)

/-- Q.TYPE (R75, R140 to R143, R145). -/
def execQType (i : BitVec 4) (ck : Word16) (s : State) : Host.Outcome State Fault Refusal :=
  .next (rxAll (queryBytes Config.cmdType i ck) s)

/-- Q.VALUE (R75, R140 to R143, R146). -/
def execQValue (i : BitVec 4) (ck : Word16) (s : State) : Host.Outcome State Fault Refusal :=
  .next (rxAll (queryBytes Config.cmdValue i ck) s)

/-- `DRAIN n`: `n` EV_TXE, then one EV_TC (R85). -/
def drain : Nat → State → Host.Outcome State Fault Refusal
  | 0, s => .next (tc s)
  | n + 1, s =>
    match txe s with
    | .next t => drain n t
    | o => o

/-- The response waiting in the buffer: its first `RB.len` bytes (R26). -/
def pendingResponse (s : State) : List Byte := s.rb.data.toList.take s.rb.len

/-- The frame `bytes` is what the block is about to send: the link is in HDT with no handler stalled, and the buffer holds
exactly these bytes, none of them pushed yet. -/
def isPending (bytes : List Byte) (s : State) : Bool :=
  idle s && s.ls == .hdt && s.rb.pos == 0 && pendingResponse s == bytes

/-- The block puts a response frame on the wire. A frame that is not the pending response is not sent, and nothing changes, as
for a disabled event (R215). -/
def transmit (bytes : List Byte) (s : State) : Host.Outcome State Fault Refusal :=
  if isPending bytes s then drain bytes.length s else .next s

/-- R.PROBE (R77). -/
def execRProbe (i : BitVec 4) (ck : Word16) (s : State) : Host.Outcome State Fault Refusal :=
  transmit (responseFrame Config.cmdProbe i [] ck) s

/-- R.TYPE (R78). -/
def execRType (i : BitVec 4) (t : Word16) (ck : Word16) (s : State) : Host.Outcome State Fault Refusal :=
  transmit (responseFrame Config.cmdType i (bytes16 t) ck) s

/-- R.VALUE2 (R79). -/
def execRValue2 (i : BitVec 4) (v : Word16) (ck : Word16) (s : State) : Host.Outcome State Fault Refusal :=
  transmit (responseFrame Config.cmdValue i (bytes16 v) ck) s

/-- R.VALUE4 (R79). -/
def execRValue4 (i : BitVec 4) (v : Word32) (ck : Word16) (s : State) : Host.Outcome State Fault Refusal :=
  transmit (responseFrame Config.cmdValue i (bytes32 v) ck) s

/-! ### Inputs that are no row of the table -/

/-- A coded input the decoder rejects. Received bytes that are no frame of the table are bytes on the line all the same: each is
offered to the grammar of the link state, which ignores or drops it (R83, R121, R140, R143, R210). A pattern that is none of the
five events (R84) is enabled in no state (R215), and bytes that are no response are never what the block sends: both leave the
state unchanged, as a disabled event does (decision D16; notes/assumptions/15.md). -/
def runUndecoded (c : Code) (s : State) : Host.Outcome State Fault Refusal :=
  match c with
  | .event _ => .next s
  | .inbound bytes => .next (rxAll bytes s)
  | .outbound _ => .next s

end Sys2Proof.Machine
end

