-- ==== Sys2Proof/Machine/Dispatch.lean ====
section
/-! DEFINITION. `exec`: one arm per constructor of `Instr`, one direct call of its meaning. -/

namespace Sys2Proof.Machine

def exec (i : Instr) (s : State) : Host.Outcome State Fault Refusal :=
  match i with
  | .servo pairs ck => Sys2Proof.Machine.execServo pairs ck s
  | .qProbe k ck => Sys2Proof.Machine.execQProbe k ck s
  | .qType k ck => Sys2Proof.Machine.execQType k ck s
  | .qValue k ck => Sys2Proof.Machine.execQValue k ck s
  | .rProbe k ck => Sys2Proof.Machine.execRProbe k ck s
  | .rType k t ck => Sys2Proof.Machine.execRType k t ck s
  | .rValue2 k v ck => Sys2Proof.Machine.execRValue2 k v ck s
  | .rValue4 k v ck => Sys2Proof.Machine.execRValue4 k v ck s
  | .evRst => Sys2Proof.Machine.execEvRst s
  | .evRx b => Sys2Proof.Machine.execEvRx b s
  | .evTxe => Sys2Proof.Machine.execEvTxe s
  | .evTc => Sys2Proof.Machine.execEvTc s
  | .evTmo => Sys2Proof.Machine.execEvTmo s

end Sys2Proof.Machine
end

