-- ==== Sys2Proof/Machine/Schedule.lean ====
section
/-! DEFINITION. Taking the next input from the environment's schedule (10_state R37 d; 60_exceptions R215 to R218), with the
priority of events that are due at the same instant (R216). -/

namespace Sys2Proof.Machine

/-- The priority class of an event pattern, lowest number first: EV_RST above the protocol class EV_RX, EV_TXE, EV_TC, and
that above EV_TMO (R216). -/
def priority (w : BitVec 11) : Nat :=
  match (w.extractLsb' 8 3).toNat with
  | 0 => 0
  | 1 => 1
  | 2 => 1
  | 3 => 1
  | _ => 2

/-- The event to handle first among `w` and `rest`, and the others, which stay pending (R216, R218). Of events of one class
the earlier listed goes first. -/
def pickFirst (w : BitVec 11) : List (BitVec 11) → BitVec 11 × List (BitVec 11)
  | [] => (w, [])
  | v :: vs =>
    let r := pickFirst v vs
    if priority w ≤ priority r.1 then (w, v :: vs) else (r.1, w :: r.2)

/-- The next coded input of a schedule and what is left of it; `none` when nothing is due. -/
def fetch : List Slot → Option (Code × List Slot)
  | [] => none
  | .one c :: rest => some (c, rest)
  | .due [] :: rest => fetch rest
  | .due (w :: ws) :: rest => some (.event (pickFirst w ws).1, .due (pickFirst w ws).2 :: rest)

end Sys2Proof.Machine
end

