-- ==== Sys2Proof/Machine/Step.lean ====
section
/-! DEFINITION. One step: take the next input of the environment's schedule, decode it, run it to completion (00_scope R5, R7;
60_exceptions R217). -/

namespace Sys2Proof.Machine

/-- One step of the block. With nothing due the block idles and all state survives (R223). A configuration outside the
constraints of R6 is refused (U17), and so is one outside the model's own bounds (notes/assumptions/25.md).
The input, an instruction or not, runs in the state whose schedule no longer holds it. -/
def step (s : State) : Host.Outcome State Fault Refusal :=
  if cfgOk s.cfg then
    match fetch s.inbox with
    | none => .next s
    | some (c, rest) =>
      match decode c with
      | .ok i => exec i { s with inbox := rest }
      | .error _ => runUndecoded c { s with inbox := rest }
  else .refused .badConfiguration

/-- `s` with the instruction whose bits are `w` put at the front of the environment's schedule, where the next step takes
it. Nothing else changes. -/
def State.withFetchWord (s : State) (nbits w : Nat) : State :=
  { s with inbox := .one (codeOfWord nbits w) :: s.inbox }

end Sys2Proof.Machine
end

