-- ==== Sys2Proof/Safety.lean ====
section
/-! DEFINITION. What counts as a safe state and a safe run, and the few predicates the statements share: the invariants of
10_state R40, the SERVO frame constraint of 30_encoding R82, repeated filter updates, runs. -/

namespace Sys2Proof.Machine

/-- The invariants that hold between any two events (R40 I1 to I8), with the three that belong to the rest of the state: the
configuration meets its constraints (R6), the pump's ramp memory is not negative (R184), and a stalled handler is one that was
executing a verified query (R214). -/
structure Inv (s : State) : Prop where
  cfgLegal : cfgOk s.cfg = true
  armedIffHalfDuplex : s.tmrArmed = true ↔ s.ls ≠ .fdl
  lineOfState : s.linectl = lineRow s.ls
  cursors : s.rb.pos ≤ s.rb.len ∧ s.rb.len ≤ 8
  bytesLeft : s.ls = .hdt → s.rb.pos < s.rb.len
  responseLength : s.ls = .hdt ∨ s.ls = .hdtr → s.rb.len = 4 ∨ s.rb.len = 6 ∨ s.rb.len = 8
  huntingOutsideFdl : s.ls ≠ .fdl → s.fa.sync = false
  servoPosition : s.ls = .fdl → s.fa.n ≤ 29
  queryPosition : s.ls = .hdl → s.fa.n ≤ 3
  absentUnseeded : ∀ k : Fin 3, s.cfg.reg[k].chan = 0 → s.filt[k].seeded = false
  accBound : ∀ k : Fin 3, s.filt[k].seeded = true → s.filt[k].acc.toNat < 2 ^ (s.cfg.rawBits + 7)
  pumpNonneg : 0 ≤ s.ramp[0]
  stallInQuery : s.stall ≠ none → s.ls = .hdl ∧ s.fa.n = 0

/-- No two consecutive bytes are the header 0x20, 0x40 (R82, R88). -/
def noHeader : List Byte → Bool
  | a :: b :: rest => !(a == Config.hdr0 && b == Config.hdr1) && noHeader (b :: rest)
  | _ => true

/-- The bytes of a SERVO frame after its header: channel bytes and trailer (bytes 2 to 31 of R72). -/
def servoBody (pairs : List Word16) (ck : Word16) : List Byte := pairBytes pairs ++ bytes16 ck

/-- The checksum a SERVO frame with these pairs must end with (R72, R73). -/
def servoChecksum (pairs : List Word16) : Word16 := checksum (Config.hdr0 :: Config.hdr1 :: pairBytes pairs)

/-- The checksum a query with this command byte must end with: `0xFFFB - cmd` (R75). -/
def queryChecksum (op i : BitVec 4) : Word16 := checksum [Config.qlen, cmdByte op i]

/-- The channel values a SERVO frame carries (R74). -/
def frameChannels (pairs : List Word16) : Vector Int 14 :=
  Vector.ofFn fun k => ((channelValue (pairs.getD k.val 0)).toNat : Int)

/-- The registers only an accepted SERVO frame writes (R126, R170, R224). -/
def SameActuators (s t : State) : Prop :=
  t.cvs = s.cvs ∧ t.ramp = s.ramp ∧ t.duty = s.duty ∧ t.dout = s.dout ∧
    t.pumpActive = s.pumpActive ∧ t.driveSel = s.driveSel

/-- What parsing a whole query leaves in the parser: the command byte, the trailer's low byte, the running checksum, and
position 0 again (R140 to R142). -/
def queryParsed (c lo : Byte) (s : State) : State :=
  { s with qcmd := c, fa := { s.fa with n := 0, prev := lo, ck := checksum [Config.qlen, c] } }

/-- The operations of the turnaround from listening to transmitting, in order (R148). -/
def turnaround : List IoOp :=
  [.line ⟨true, false, false, false, false⟩, .line ⟨true, false, true, false, false⟩, .idle,
   .line ⟨true, false, true, true, false⟩]

/-- What an answered query leaves: the response in the buffer from index 0 on, nothing of it sent, and the line turned round
(R144 to R148). -/
def answered (bytes : List Byte) (s : State) : State :=
  { s with
    ls := .hdt
    rb := ⟨Vector.ofFn fun j => bytes.getD j.val s.rb.data[j], bytes.length, 0⟩
    linectl := lineRow .hdt
    io := s.io ++ turnaround }

/-- What a dropped query leaves, beyond what parsing it has done (R211, R212). -/
def dropped (e : ErrorKind) (s : State) : State := { s with drops := s.drops ++ [e] }

/-- The line control writes after the last byte of a response: transmit-complete enabled (R149), then back to listening
(R150). -/
def turnback : List IoOp :=
  [.line ⟨true, false, true, false, false⟩, .line ⟨true, false, true, false, true⟩,
   .line ⟨true, false, true, false, false⟩, .line ⟨true, false, false, false, false⟩, .line ⟨true, true, false, false, false⟩]

/-- What sending a whole response leaves: its bytes on the wire in order and the link listening for the next query (R149,
R150). -/
def sent (bytes : List Byte) (s : State) : State :=
  { s with
    ls := .hdl
    fa := { s.fa with sync := false, n := 0, prev := 0x00 }
    rb := { s.rb with pos := bytes.length }
    linectl := lineRow .hdl
    io := s.io ++ (bytes.map .byte ++ turnback) }

/-- The block is listening for the first byte of a query (R140). -/
def ListensForQuery (s : State) : Prop :=
  s.stall = none ∧ s.ls = .hdl ∧ s.linectl = lineRow .hdl ∧ s.fa.n = 0

/-- The block is listening in full-duplex with no handler stalled (R121). -/
def ListensForServo (s : State) : Prop :=
  s.stall = none ∧ s.ls = .fdl ∧ s.linectl = lineRow .fdl

/-- The response `bytes` is in the buffer, none of it sent, and the transmitter is asking for the first byte (R148). -/
def HoldsResponse (bytes : List Byte) (s : State) : Prop :=
  s.stall = none ∧ s.ls = .hdt ∧ s.linectl = lineRow .hdt ∧ s.rb.pos = 0 ∧ s.rb.len = bytes.length ∧
    s.rb.data.toList.take bytes.length = bytes

/-- The response `bytes` is not what the block is about to send: a handler is stalled, the link is not in HDT, some of the buffer
is already sent, or the buffer holds other bytes (notes/assumptions/13.md). -/
def NotPending (bytes : List Byte) (s : State) : Prop :=
  s.stall ≠ none ∨ s.ls ≠ .hdt ∨ s.rb.pos ≠ 0 ∨ s.rb.data.toList.take s.rb.len ≠ bytes

/-- A query's command byte names an installed sensor and a command the block answers for it: Probe and Type for any type code,
Value for a declared width of 2 or 4 (R143, R146). -/
def Answerable (cfg : ConfigRec) (cmd : Byte) : Prop :=
  cmdIndex cmd ≠ 0 ∧ sensorType cfg ((cmdIndex cmd).toNat - 1) ≠ 0 ∧
    (cmdOp cmd = 0x8 ∨ cmdOp cmd = 0x9 ∨
      cmdOp cmd = 0xA ∧ (typeWidth (sensorType cfg ((cmdIndex cmd).toNat - 1)) = 2 ∨
        typeWidth (sensorType cfg ((cmdIndex cmd).toNat - 1)) = 4))

/-- The bytes of a self-checked frame: `body` and its checksum trailer (R73, R80). -/
def selfChecked (body : List Byte) : List Byte := body ++ bytes16 (checksum body)

/-- The filter after `n` samples of the same reading (R104). -/
def filterRun (f : Filter) (raw : Nat) : Nat → Filter
  | 0 => f
  | n + 1 => filterNext (filterRun f raw n) raw

/-- The ramped value after `n` invocations with the same target (R182). -/
def rampRun (cfg : ConfigRec) (target : Int) (step : Nat) (prev : Int) : Nat → Int
  | 0 => prev
  | n + 1 => rampTo cfg target (rampRun cfg target step prev n) step

/-- `Receives s bytes t`: EV_RX of the bytes, one after the other, leads from `s` to `t` (R85, R215). -/
inductive Receives : State → List Byte → State → Prop where
  | nil (s : State) : Receives s [] s
  | cons {b : Byte} {bs : List Byte} {s t u : State} :
    exec (.evRx b) s = .next t → Receives t bs u → Receives s (b :: bs) u

/-- A state that some number of steps leads to from `s`. -/
inductive Reaches (s : State) : State → Prop where
  | start : Reaches s s
  | step {t u : State} : Reaches s t → Machine.step t = .next u → Reaches s u

end Sys2Proof.Machine
end

