-- ==== Sys2Proof/Certificates/Slice0/Obligations.lean ====
section
/-! DEFINITION. The statements for the provers. Rule numbers are those of spec/. -/

open Sys2Proof Sys2Proof.Machine

/-! ### Encoding -/

/-- Decoding an encoded instruction gives it back, for every well-formed instruction of the table. -/
def Obligations.DecodeOfEncode : Prop :=
  ∀ i : Instr, i.wellFormed = true → decode (encode i) = .ok i

/-- A coded input that decodes is the encoding of the instruction it decodes to, and that instruction is well-formed: no two
coded inputs mean the same instruction. -/
def Obligations.EncodeOfDecode : Prop :=
  ∀ (c : Code) (i : Instr), decode c = .ok i → encode i = c ∧ i.wellFormed = true

/-- Words written out from the encodings of 30_encoding R72, R75, R77 to R79 and R84 decode to the instructions they stand for; an
unused event code and a stray operand do not decode. How a word's bits are numbered, that the 32 bits Q.PROBE shares with R.PROBE
are read as Q.PROBE, and that the 16 bits 0x2040 are padded with zeros to a SERVO frame, is the model's choice
(notes/assumptions/14.md), not the spec's. -/
def Obligations.TableWordsDecode : Prop :=
  decodeTableWord 32 0x04817AFF = some (.qProbe 1 0xFF7A) ∧
  decodeTableWord 32 0x04926900 = some (.qType 2 0x0069) ∧
  decodeTableWord 32 0x04A25900 = some (.qValue 2 0x0059) ∧
  decodeTableWord 48 0x0691010265FF = some (.rType 1 0x0201 0xFF65) ∧
  decodeTableWord 48 0x06A15CFEFEFD = some (.rValue2 1 0xFE5C 0xFDFE) ∧
  decodeTableWord 64 0x08A2E646000029FE = some (.rValue4 2 0x000046E6 0xFE29) ∧
  decodeTableWord 16 0x2040 = some (.servo (List.replicate 14 0) 0) ∧
  decode (.outbound [0x04, 0x81, 0x7A, 0xFF]) = .ok (.rProbe 1 0xFF7A) ∧
  decodeTableWord 16 0x000 = some .evRst ∧
  decodeTableWord 16 0x17A = some (.evRx 0x7A) ∧
  decodeTableWord 16 0x200 = some .evTxe ∧
  decodeTableWord 16 0x300 = some .evTc ∧
  decodeTableWord 16 0x400 = some .evTmo ∧
  decodeTableWord 16 0x500 = none ∧
  decodeTableWord 16 0x201 = none

/-! ### The step -/

/-- When the next coded input of the schedule decodes to an instruction, the step is that instruction's `exec` in the state
whose schedule no longer holds the input. That inputs come from a schedule in the state, and that a step takes its head, is the
model's choice (notes/assumptions/6.md), not the spec's. -/
def Obligations.StepRunsDecoded : Prop :=
  ∀ (s : State) (c : Code) (rest : List Slot) (i : Instr),
    cfgOk s.cfg = true → fetch s.inbox = some (c, rest) → decode c = .ok i →
      step s = exec i { s with inbox := rest }

/-- An instruction placed by `withFetchWord` is the one the very next step runs, in the state it was placed in (the schedule is
the model's choice, notes/assumptions/6.md). -/
def Obligations.PlacedWordRuns : Prop :=
  ∀ (s : State) (nbits w : Nat) (i : Instr),
    cfgOk s.cfg = true → decodeTableWord nbits w = some i → step (s.withFetchWord nbits w) = exec i s

/-- What a step does besides running a decoded instruction. With nothing due the block idles and all state survives (R223).
Inbound bytes, a frame of the table or not, have the effect of their EV_RX one by one (R83, R85). A pattern that is none of the
five events, and an outbound frame that is no response, change nothing but the schedule they are taken from; an illegal
configuration is refused by name (the model's choices, notes/assumptions/15.md, 5.md and 25.md). -/
def Obligations.StepWithoutInstruction : Prop :=
  (∀ s : State, cfgOk s.cfg = true → fetch s.inbox = none → step s = .next s) ∧
  (∀ (s : State) (bytes : List Byte) (rest : List Slot),
    cfgOk s.cfg = true → fetch s.inbox = some (.inbound bytes, rest) →
      ∃ t, step s = .next t ∧ Receives { s with inbox := rest } bytes t) ∧
  (∀ (s : State) (w : BitVec 11) (rest : List Slot) (e : DecodeError),
    cfgOk s.cfg = true → fetch s.inbox = some (.event w, rest) → decode (.event w) = .error e →
      step s = .next { s with inbox := rest }) ∧
  (∀ (s : State) (bytes : List Byte) (rest : List Slot) (e : DecodeError),
    cfgOk s.cfg = true → fetch s.inbox = some (.outbound bytes, rest) → decode (.outbound bytes) = .error e →
      step s = .next { s with inbox := rest }) ∧
  (∀ s : State, cfgOk s.cfg = false → step s = .refused .badConfiguration)

/-- Of events due at the same instant one of the highest priority is handled first and the others stay pending; EV_RST is
above the protocol events, and they are above EV_TMO (R216, decision D37; the schedule is notes/assumptions/6.md and 7.md). -/
def Obligations.DuePriority : Prop :=
  (∀ (w : BitVec 11) (ws : List (BitVec 11)) (rest : List Slot),
    ∃ v vs, fetch (.due (w :: ws) :: rest) = some (.event v, .due vs :: rest) ∧
      (v :: vs).Perm (w :: ws) ∧ ∀ u ∈ w :: ws, priority v ≤ priority u) ∧
  (∀ b : Byte,
    priority (eventWord 0 0) < priority (eventWord 1 b) ∧
    priority (eventWord 1 b) = priority (eventWord 2 0) ∧
    priority (eventWord 2 0) = priority (eventWord 3 0) ∧
    priority (eventWord 3 0) < priority (eventWord 4 0))

/-! ### Invariant and safety -/

/-- The state after reset meets the invariants of R40, with any legal configuration, any schedule of events and any script of
acquisition answers. -/
def Obligations.ResetMeetsInvariants : Prop :=
  Inv State.reset ∧
  ∀ (cfg : ConfigRec) (inbox : List Slot) (adc : List AdcReply),
    cfgOk cfg = true → Inv { State.reset with cfg := cfg, inbox := inbox, adc := adc }

/-- Every step keeps the invariants I1 to I8 of R40 (and the legal configuration, the non-negative pump ramp and the place of a
stall). -/
def Obligations.StepKeepsInvariants : Prop :=
  ∀ s t : State, Inv s → step s = .next t → Inv t

/-- From a state that meets the invariants no run ever stops: every step answers a next state, never a fault or a refusal,
whatever the schedule holds (R60, R83, R210; what the block does with a pattern that is none of its events is the model's choice,
notes/assumptions/15.md). -/
def Obligations.RunsNeverStop : Prop :=
  ∀ s t : State, Inv s → Reaches s t → ∃ u, step t = .next u

/-! ### Rules about the whole machine -/

/-- No instruction writes the configuration, the sensor registry among it (R12, R29). -/
def Obligations.ConfigurationNeverWritten : Prop :=
  ∀ (i : Instr) (s t : State), exec i s = .next t → t.cfg = s.cfg

/-- Apart from reset, the published channels, the ramp memory, the compare registers, the digital outputs and the mixer's flags
change only where the watchdog is kicked, that is in `Mix()` (R191, R224). -/
def Obligations.ActuatorsMoveOnlyWithKick : Prop :=
  ∀ (i : Instr) (s t : State), i ≠ .evRst → exec i s = .next t → t.wdgOut = s.wdgOut → SameActuators s t

/-- A received byte kicks the watchdog at most once, and then it is the last trailer byte of an accepted SERVO frame (`FA.n` is
29, or past it in states that no run reaches): the frame's channels are published, the timer is armed and the link is in HDL. The other events kick never (R126, R191, R259). -/
def Obligations.KickOnlyOnAcceptedFrame : Prop :=
  (∀ (b : Byte) (s t : State), exec (.evRx b) s = .next t →
    t.wdgOut = s.wdgOut ∨
    (t.wdgOut = s.wdgOut ++ [.kick] ∧ s.ls = .fdl ∧ s.fa.sync = true ∧ 29 ≤ s.fa.n ∧
      (Inv s → s.fa.n = 29) ∧ pair s.fa.prev b = s.fa.ck ∧ t.cvs = s.tf.map (fun v => (v.toNat : Int)) ∧ t.tmrArmed = true ∧ t.ls = .hdl ∧
      t.armRequests = s.armRequests + 1)) ∧
  (∀ (i : Instr) (s t : State), i = .evTxe ∨ i = .evTc ∨ i = .evTmo → exec i s = .next t → t.wdgOut = s.wdgOut)

/-- While a handler waits for an acquisition that never returns, no instruction but EV_RST has any effect (R107, R214, decision
D37). -/
def Obligations.StallBlocksAllButReset : Prop :=
  ∀ (i : Instr) (s : State) (c : Nat), s.stall = some c → i ≠ .evRst → exec i s = .next s

/-- Every change of the link state is one of the table R153, under that row's condition: a received byte leaves FDL only as the
last byte of a SERVO frame whose trailer matches, and HDL only as the last byte of a verified, answerable query. -/
def Obligations.LinkStateTransitions : Prop :=
  (∀ s t : State, exec .evRst s = .next t → t.ls = .fdl) ∧
  (∀ (b : Byte) (s t : State), exec (.evRx b) s = .next t →
    t.ls = s.ls ∨
    (s.ls = .fdl ∧ s.fa.sync = true ∧ 29 ≤ s.fa.n ∧ (Inv s → s.fa.n = 29) ∧ ¬ (s.fa.prev = 0x20 ∧ b = 0x40) ∧
      (s.fa.prev.setWidth 16 ||| (b.setWidth 16 <<< 8) : Word16) = s.fa.ck ∧ t.ls = .hdl ∧
      t.wdgOut = s.wdgOut ++ [.kick] ∧ t.tmrArmed = true ∧ t.linectl.hd = true) ∨
    (s.ls = .hdl ∧ s.fa.n = 3 ∧ (s.fa.prev.setWidth 16 ||| (b.setWidth 16 <<< 8) : Word16) = s.fa.ck ∧
      Answerable s.cfg s.qcmd ∧ t.ls = .hdt ∧ t.wireOut = s.wireOut ++ [.idle] ∧
      t.linectl.re = false ∧ t.linectl.te = true ∧ t.linectl.txeie = true)) ∧
  (∀ s t : State, exec .evTxe s = .next t →
    t.ls = s.ls ∨ (s.ls = .hdt ∧ s.rb.pos + 1 = s.rb.len ∧ t.ls = .hdtr ∧ t.linectl.txeie = false ∧ t.linectl.tcie = true)) ∧
  (∀ s t : State, exec .evTc s = .next t →
    t.ls = s.ls ∨ (s.ls = .hdtr ∧ t.ls = .hdl ∧ t.linectl.te = false ∧ t.linectl.re = true ∧ t.linectl.tcie = false)) ∧
  (∀ s t : State, exec .evTmo s = .next t →
    t.ls = s.ls ∨ (s.tmrArmed = true ∧ t.ls = .fdl ∧ t.linectl = lineRow .fdl))

/-- An event offered while its enable is 0, or in a link state whose handler it has not, leaves the state unchanged (R215,
R120, R149, R150; decision D16). -/
def Obligations.DisabledEventsChangeNothing : Prop :=
  ∀ s : State,
    (∀ b : Byte, s.linectl.re = false ∨ s.ls = .hdt ∨ s.ls = .hdtr → exec (.evRx b) s = .next s) ∧
    (s.linectl.txeie = false ∨ s.ls ≠ .hdt → exec .evTxe s = .next s) ∧
    (s.linectl.tcie = false ∨ s.ls ≠ .hdtr → exec .evTc s = .next s) ∧
    (s.tmrArmed = false → exec .evTmo s = .next s)

/-- A received byte that raises a `Drop` changes no register but the parse state, which is then as R211 says, and the model's
own drop log (R212). -/
def Obligations.DropChangesOnlyParseState : Prop :=
  ∀ (b : Byte) (s t : State) (e : ErrorKind), exec (.evRx b) s = .next t → t.drops = s.drops ++ [e] →
    e ≠ .stall ∧
    t = { s with
      fa := (match e with
        | .resync => ⟨true, 0, b, 0xFF9F⟩
        | .len => s.fa
        | .cksum => if s.ls = .fdl then { s.fa with sync := false, n := 0, prev := b } else { s.fa with n := 0 }
        | _ => { s.fa with n := 0 })
      drops := s.drops ++ [e] }

/-- The drop log is bookkeeping only: with another log, every instruction does the same to the rest of the state (R11, R211;
the log is the model's, notes/assumptions/11.md). -/
def Obligations.DropLogNeverRead : Prop :=
  ∀ (i : Instr) (s t : State) (d : List ErrorKind), exec i s = .next t →
    ∃ d', exec i { s with drops := d } = .next { t with drops := d' }

/-- What the events put on the wire: EV_RX nothing, or the one IDLE of an answered query; EV_TXE nothing, or the byte at
`RB.pos`; EV_TC and EV_TMO nothing (R86, R148, R149). -/
def Obligations.WireSymbolsByEvent : Prop :=
  (∀ (b : Byte) (s t : State), exec (.evRx b) s = .next t →
    (t.wireOut = s.wireOut ∧ t.rb = s.rb) ∨
    (t.wireOut = s.wireOut ++ [.idle] ∧ s.ls = .hdl ∧ t.ls = .hdt ∧ t.rb.pos = 0)) ∧
  (∀ s t : State, exec .evTxe s = .next t →
    t = s ∨ ∃ h : s.rb.pos < 8, t.wireOut = s.wireOut ++ [.byte s.rb.data[s.rb.pos]] ∧ t.rb.pos = s.rb.pos + 1 ∧
      t.rb.len = s.rb.len ∧ t.rb.data = s.rb.data) ∧
  (∀ (i : Instr) (s t : State), i = .evTc ∨ i = .evTmo → exec i s = .next t → t.wireOut = s.wireOut)

/-- A filter changes only where a verified Value query of its sensor is answered, by one sample after one acquisition request on
that sensor's channel; the other filters stay as they are (R101, R109, R264). -/
def Obligations.FilterAdvancesOnlyWhenAsked : Prop :=
  (∀ (b : Byte) (s t : State), exec (.evRx b) s = .next t →
    (t.filt = s.filt ∧ (t.adcRequests = s.adcRequests ∨ (t.stall ≠ none ∧ t.ls = .hdl))) ∨
    (s.ls = .hdl ∧ t.ls = .hdt ∧ cmdOp s.qcmd = 0xA ∧ pair s.fa.prev b = s.fa.ck ∧
      ∃ (k : Fin 3) (raw : Nat), k.val + 1 = (cmdIndex s.qcmd).toNat ∧ raw < 2 ^ s.cfg.rawBits ∧
        t.filt = s.filt.set k (filterNext s.filt[k] raw) ∧ t.adcRequests = s.adcRequests ++ [s.cfg.reg[k].chan])) ∧
  (∀ (i : Instr) (s t : State), i = .evTxe ∨ i = .evTc ∨ i = .evTmo → exec i s = .next t →
    t.filt = s.filt ∧ t.adcRequests = s.adcRequests)

/-! ### Servo reception -/

/-- Hunting: a byte that does not complete a header is ignored except that it becomes `FA.prev` (R122). -/
def Obligations.HuntingByteIgnored : Prop :=
  ∀ (b : Byte) (s : State), ListensForServo s → s.fa.sync = false → ¬ (s.fa.prev = 0x20 ∧ b = 0x40) →
    exec (.evRx b) s = .next { s with fa := { s.fa with prev := b } }

/-- The header 0x20, 0x40 starts an attempt wherever it is received, and abandons one in progress (R121, R127; decisions D7
and D8). -/
def Obligations.HeaderStartsAttempt : Prop :=
  ∀ s : State, ListensForServo s → s.fa.prev = 0x20 →
    exec (.evRx 0x40) s = .next { s with
      fa := ⟨true, 0, 0x40, 0xFF9F⟩
      drops := if s.fa.sync then s.drops ++ [.resync] else s.drops }

/-- The first byte of a pair is only remembered, and the position advances (R123). -/
def Obligations.FirstPairByteRemembered : Prop :=
  ∀ (b : Byte) (s : State), ListensForServo s → s.fa.sync = true → s.fa.n % 2 = 0 → ¬ (s.fa.prev = 0x20 ∧ b = 0x40) →
    exec (.evRx b) s = .next { s with fa := { s.fa with prev := b, n := s.fa.n + 1 } }

/-- The second byte of channel pair `k` stores the pair's low 12 bits and takes both bytes off the checksum (R124). -/
def Obligations.ChannelPairStored : Prop :=
  ∀ (b : Byte) (s : State) (k : Fin 14), ListensForServo s → s.fa.sync = true → s.fa.n = 2 * k.val + 1 →
    ¬ (s.fa.prev = 0x20 ∧ b = 0x40) →
    exec (.evRx b) s = .next { s with
      tf := s.tf.set k ((s.fa.prev.setWidth 16 ||| (b.setWidth 16 <<< 8) : Word16).setWidth 12)
      fa := { s.fa with
        prev := b
        ck := s.fa.ck - s.fa.prev.setWidth 16 - b.setWidth 16
        n := s.fa.n + 1 } }

/-- The checksum pair ends the attempt, wherever the attempt began. A trailer that is the running checksum has the frame accepted:
the parsed channels are published, the mixer runs once on them, the timer is armed, the line is half-duplex, the link is in HDL
and the parser is reset, with nothing else changed; any other trailer is dropped with nothing else changed (R125, R126,
decision D9). -/
def Obligations.TrailerAcceptsOrDrops : Prop :=
  ∀ (b : Byte) (s : State), ListensForServo s → s.fa.sync = true → s.fa.n = 29 → ¬ (s.fa.prev = 0x20 ∧ b = 0x40) →
    let w : Word16 := s.fa.prev.setWidth 16 ||| (b.setWidth 16 <<< 8)
    let m := mix { s with cvs := s.tf.map fun v => (v.toNat : Int) }
    (w = s.fa.ck → exec (.evRx b) s = .next { m with
      ls := .hdl
      fa := ⟨false, 0, 0x00, s.fa.ck⟩
      tmrArmed := true
      linectl := lineRow .hdl
      io := m.io ++ [.arm, .line (lineRow .hdl)] }) ∧
    (w ≠ s.fa.ck → exec (.evRx b) s = .next { s with
      fa := { s.fa with sync := false, n := 0, prev := b }
      drops := s.drops ++ [.cksum] })

/-- A SERVO frame with the right trailer and no header inside is accepted by a hunting block, and by one inside an attempt that is
not at its last byte: that attempt is abandoned (R127). The frame's fourteen 12-bit values are published, the mixer runs once on
them, the timer is armed, the line is half-duplex and the parser is reset; nothing else changes (R72, R74, R126). -/
def Obligations.ServoFrameAccepted : Prop :=
  ∀ (pairs : List Word16) (s : State),
    pairs.length = 14 → noHeader (servoBody pairs (servoChecksum pairs)) = true →
    ListensForServo s → (s.fa.sync = true → s.fa.n < 29) →
    let m := mix { s with cvs := frameChannels pairs }
    exec (.servo pairs (servoChecksum pairs)) s = .next { m with
      ls := .hdl
      tf := Vector.ofFn fun k => (pairs.getD k.val 0).setWidth 12
      fa := ⟨false, 0, 0x00, servoChecksum pairs⟩
      tmrArmed := true
      linectl := lineRow .hdl
      io := m.io ++ [.arm, .line (lineRow .hdl)]
      drops := if s.fa.sync then s.drops ++ [.resync] else s.drops }

/-- A SERVO frame with any other trailer is dropped: the channels and every output stay exactly as they were (R125, R129). -/
def Obligations.CorruptServoFrameDropped : Prop :=
  ∀ (pairs : List Word16) (ck : Word16) (s : State),
    pairs.length = 14 → noHeader (servoBody pairs ck) = true → ck ≠ servoChecksum pairs →
    ListensForServo s → s.fa.sync = false →
    exec (.servo pairs ck) s = .next { s with
      tf := Vector.ofFn fun k => (pairs.getD k.val 0).setWidth 12
      fa := ⟨false, 0, highByte ck, servoChecksum pairs⟩
      drops := s.drops ++ [.cksum] }

/-- A SERVO frame whose bytes 2 to 31 contain 0x20 followed by 0x40 is never accepted, whatever its trailer: the parser
resynchronises inside it and nothing observable changes (R127, R260). -/
def Obligations.InnerHeaderNeverAccepted : Prop :=
  ∀ (pairs : List Word16) (ck : Word16) (s : State),
    pairs.length = 14 → noHeader (servoBody pairs ck) = false → ListensForServo s → s.fa.sync = false →
    ∃ t l, exec (.servo pairs ck) s = .next t ∧ t.ls = .fdl ∧ SameActuators s t ∧ t.io = s.io ∧
      t.tmrArmed = s.tmrArmed ∧ t.linectl = s.linectl ∧ t.drops = s.drops ++ l ∧ .resync ∈ l

/-- While the receiver is off, the bytes of an inbound frame are lost without trace (R215, R261). -/
def Obligations.FramesLostWhileReceiverOff : Prop :=
  ∀ s : State, s.linectl.re = false →
    (∀ (pairs : List Word16) (ck : Word16), exec (.servo pairs ck) s = .next s) ∧
    (∀ (i : BitVec 4) (ck : Word16),
      exec (.qProbe i ck) s = .next s ∧ exec (.qType i ck) s = .next s ∧ exec (.qValue i ck) s = .next s)

/-- A SERVO frame with no byte 0x04 that arrives in the half-duplex window is dropped byte by byte (R140, R256). -/
def Obligations.ServoInHalfDuplexDropped : Prop :=
  ∀ (pairs : List Word16) (ck : Word16) (s : State),
    pairs.length = 14 → ListensForQuery s → (0x04 : Byte) ∉ servoBytes pairs ck →
    exec (.servo pairs ck) s = .next { s with drops := s.drops ++ List.replicate 32 .len }

/-! ### Queries -/

/-- Position 0 of a query: the length byte must be 4; any other byte is dropped alone (R140, decision D10). -/
def Obligations.QueryLengthByte : Prop :=
  ∀ (b : Byte) (s : State), ListensForQuery s →
    (b = 0x04 → exec (.evRx b) s = .next { s with fa := { s.fa with ck := 0xFFFB, n := 1 } }) ∧
    (b ≠ 0x04 → exec (.evRx b) s = .next { s with drops := s.drops ++ [.len] })

/-- Position 1 of a query: any byte is taken as the command byte (R141). -/
def Obligations.QueryCommandByte : Prop :=
  ∀ (b : Byte) (s : State), s.stall = none → s.ls = .hdl → s.linectl.re = true → s.fa.n = 1 →
    exec (.evRx b) s = .next { s with
      qcmd := b
      fa := { s.fa with ck := s.fa.ck - b.setWidth 16, n := 2 } }

/-- A verified query with an unknown command nibble is dropped, if index and sensor pass (R143, R83). -/
def Obligations.UnknownCommandDropped : Prop :=
  ∀ (b : Byte) (s : State), s.stall = none → s.ls = .hdl → s.linectl.re = true → s.fa.n = 3 →
    (s.fa.prev.setWidth 16 ||| (b.setWidth 16 <<< 8) : Word16) = s.fa.ck → cmdIndex s.qcmd ≠ 0 → sensorType s.cfg ((cmdIndex s.qcmd).toNat - 1) ≠ 0 →
    cmdOp s.qcmd ≠ 0x8 → cmdOp s.qcmd ≠ 0x9 → cmdOp s.qcmd ≠ 0xA →
    exec (.evRx b) s = .next { s with fa := { s.fa with n := 0 }, drops := s.drops ++ [.cmd] }

/-- A query with a wrong trailer is dropped before its command is looked at (R142, R225). -/
def Obligations.QueryTrailerMismatchDropped : Prop :=
  ∀ (s : State) (i : BitVec 4) (ck : Word16), ListensForQuery s →
    (ck ≠ queryChecksum 0x8 i →
      exec (.qProbe i ck) s = .next (dropped .cksum (queryParsed (cmdByte 0x8 i) (lowByte ck) s))) ∧
    (ck ≠ queryChecksum 0x9 i →
      exec (.qType i ck) s = .next (dropped .cksum (queryParsed (cmdByte 0x9 i) (lowByte ck) s))) ∧
    (ck ≠ queryChecksum 0xA i →
      exec (.qValue i ck) s = .next (dropped .cksum (queryParsed (cmdByte 0xA i) (lowByte ck) s)))

/-- A verified query for the reserved index 0 or for an absent sensor is dropped, whatever its command; a Value query of an
unsupported width is dropped before any acquisition (R143, R146; decisions D11 and D12). -/
def Obligations.UnanswerableQueryDropped : Prop :=
  ∀ (s : State) (i : BitVec 4), ListensForQuery s →
    (∀ e : ErrorKind, (i = 0 ∧ e = .idx0) ∨ (i ≠ 0 ∧ sensorType s.cfg (i.toNat - 1) = 0 ∧ e = .absent) →
      exec (.qProbe i (queryChecksum 0x8 i)) s =
        .next (dropped e (queryParsed (cmdByte 0x8 i) (lowByte (queryChecksum 0x8 i)) s)) ∧
      exec (.qType i (queryChecksum 0x9 i)) s =
        .next (dropped e (queryParsed (cmdByte 0x9 i) (lowByte (queryChecksum 0x9 i)) s)) ∧
      exec (.qValue i (queryChecksum 0xA i)) s =
        .next (dropped e (queryParsed (cmdByte 0xA i) (lowByte (queryChecksum 0xA i)) s))) ∧
    (i ≠ 0 → sensorType s.cfg (i.toNat - 1) ≠ 0 →
      typeWidth (sensorType s.cfg (i.toNat - 1)) ≠ 2 → typeWidth (sensorType s.cfg (i.toNat - 1)) ≠ 4 →
      exec (.qValue i (queryChecksum 0xA i)) s =
        .next (dropped .width (queryParsed (cmdByte 0xA i) (lowByte (queryChecksum 0xA i)) s)))

/-- A valid Probe query for an existing sensor is answered with its own four bytes; no sensor is sampled (R144, R148). -/
def Obligations.ProbeQueryAnswered : Prop :=
  ∀ (s : State) (i : BitVec 4), ListensForQuery s → i ≠ 0 → sensorType s.cfg (i.toNat - 1) ≠ 0 →
    exec (.qProbe i (queryChecksum 0x8 i)) s =
      .next (answered [0x04, cmdByte 0x8 i, lowByte (queryChecksum 0x8 i), highByte (queryChecksum 0x8 i)]
        (queryParsed (cmdByte 0x8 i) (lowByte (queryChecksum 0x8 i)) s))

/-- A valid Type query for an existing sensor is answered with its type code, whatever the declared width; no sensor is sampled
(R145, R147, R148). -/
def Obligations.TypeQueryAnswered : Prop :=
  ∀ (s : State) (i : BitVec 4), ListensForQuery s → i ≠ 0 → sensorType s.cfg (i.toNat - 1) ≠ 0 →
    let t := sensorType s.cfg (i.toNat - 1)
    exec (.qType i (queryChecksum 0x9 i)) s =
      .next (answered (selfChecked [0x06, cmdByte 0x9 i, lowByte t, highByte t])
        (queryParsed (cmdByte 0x9 i) (lowByte (queryChecksum 0x9 i)) s))

/-- A valid Value query for an existing sensor of width 2 or 4 takes one acquisition, advances that sensor's filter by it and is
answered with the converted reading, in the declared width (R101, R103, R146). -/
def Obligations.ValueQueryAnswered : Prop :=
  ∀ (s s1 : State) (k : Fin 3) (i : BitVec 4) (raw : Nat), ListensForQuery s → i.toNat = k.val + 1 →
    sensorType s.cfg k.val ≠ 0 → adcRead s.cfg.reg[k].chan s = (some raw, s1) →
    let q := queryParsed (cmdByte 0xA i) (lowByte (queryChecksum 0xA i))
      { s1 with filt := s.filt.set k (filterNext s.filt[k] raw) }
    let v := convert s.cfg.conv[k] (filterReport (filterNext s.filt[k] raw))
    (typeWidth (sensorType s.cfg k.val) = 2 →
      exec (.qValue i (queryChecksum 0xA i)) s =
        .next (answered (selfChecked [0x06, cmdByte 0xA i, v.extractLsb' 0 8, v.extractLsb' 8 8]) q)) ∧
    (typeWidth (sensorType s.cfg k.val) = 4 →
      exec (.qValue i (queryChecksum 0xA i)) s =
        .next (answered (selfChecked [0x08, cmdByte 0xA i, v.extractLsb' 0 8, v.extractLsb' 8 8, v.extractLsb' 16 8,
          v.extractLsb' 24 8]) q))

/-- A Value query whose acquisition never returns leaves the handler waiting: the query is parsed, the request is out, the
filter is not updated and no response is built (R107, R214). -/
def Obligations.ValueQueryStalls : Prop :=
  ∀ (s s1 : State) (k : Fin 3) (i : BitVec 4), ListensForQuery s → i.toNat = k.val + 1 →
    sensorType s.cfg k.val ≠ 0 →
    typeWidth (sensorType s.cfg k.val) = 2 ∨ typeWidth (sensorType s.cfg k.val) = 4 →
    adcRead s.cfg.reg[k].chan s = (none, s1) →
    exec (.qValue i (queryChecksum 0xA i)) s =
      .next { queryParsed (cmdByte 0xA i) (lowByte (queryChecksum 0xA i)) s1 with stall := some s.cfg.reg[k].chan }

/-- One acquisition is one request in the trace and one answer of the environment: the next of its script, a number of
`RAW_BITS` bits, or "never"; with no script left, a free draw, which fits `RAW_BITS` bits whatever it is (R102, R54; script
and draw are the model's, notes/assumptions/8.md). -/
def Obligations.AdcReadAnswers : Prop :=
  ∀ (s : State) (chan : Nat),
    (∀ raw rest, s.adc = .value raw :: rest →
      adcRead chan s = (some (raw.toNat % 2 ^ s.cfg.rawBits), { s with io := s.io ++ [.adc chan], adc := rest })) ∧
    (∀ rest, s.adc = .never :: rest → adcRead chan s = (none, { s with io := s.io ++ [.adc chan], adc := rest })) ∧
    (s.adc = [] → adcRead chan s =
      ((Config.adcDraw s.draws).map fun raw => raw.toNat % 2 ^ s.cfg.rawBits,
        { s with io := s.io ++ [.adc chan], draws := s.draws + 1 }))

/-! ### Responses -/

/-- A response that is waiting in the buffer goes out whole and in order, one byte per EV_TXE, and the EV_TC after it returns the
link to HDL, ready for the next query; the timer keeps running (R77 to R79, R149, R150). A response that is not the pending one
is not sent. That a response frame is one instruction, and when it is sent, is the model's choice (notes/assumptions/13.md). -/
def Obligations.ResponseTransmitted : Prop :=
  ∀ (s : State) (i : BitVec 4) (ck : Word16),
    (∀ bytes, bytes = [0x04, cmdByte 0x8 i, lowByte ck, highByte ck] →
      (HoldsResponse bytes s → exec (.rProbe i ck) s = .next (sent bytes s)) ∧
      (NotPending bytes s → exec (.rProbe i ck) s = .next s)) ∧
    (∀ (t : Word16) bytes, bytes = [0x06, cmdByte 0x9 i, lowByte t, highByte t, lowByte ck, highByte ck] →
      (HoldsResponse bytes s → exec (.rType i t ck) s = .next (sent bytes s)) ∧
      (NotPending bytes s → exec (.rType i t ck) s = .next s)) ∧
    (∀ (v : Word16) bytes, bytes = [0x06, cmdByte 0xA i, lowByte v, highByte v, lowByte ck, highByte ck] →
      (HoldsResponse bytes s → exec (.rValue2 i v ck) s = .next (sent bytes s)) ∧
      (NotPending bytes s → exec (.rValue2 i v ck) s = .next s)) ∧
    (∀ (v : Word32) bytes, bytes = [0x08, cmdByte 0xA i, v.extractLsb' 0 8, v.extractLsb' 8 8, v.extractLsb' 16 8,
        v.extractLsb' 24 8, lowByte ck, highByte ck] →
      (HoldsResponse bytes s → exec (.rValue4 i v ck) s = .next (sent bytes s)) ∧
      (NotPending bytes s → exec (.rValue4 i v ck) s = .next s))

/-- A valid Probe query and the transmission of its answer put an IDLE and the query's own four bytes on the wire; the link
listens again, and outputs, filters and timer are untouched (R77, R144, R148 to R150). That the response row R.PROBE, as one
instruction, sends the whole buffer is the model's choice (notes/assumptions/13.md), not the spec's. -/
def Obligations.ProbeExchange : Prop :=
  ∀ (s : State) (i : BitVec 4), ListensForQuery s → i ≠ 0 → sensorType s.cfg (i.toNat - 1) ≠ 0 →
    ∃ t u, exec (.qProbe i (queryChecksum 0x8 i)) s = .next t ∧ exec (.rProbe i (queryChecksum 0x8 i)) t = .next u ∧
      u.wireOut = s.wireOut ++ .idle :: (queryBytes 0x8 i (queryChecksum 0x8 i)).map .byte ∧
      u.ls = .hdl ∧ u.linectl = lineRow .hdl ∧ SameActuators s u ∧ u.filt = s.filt ∧ u.tmrArmed = s.tmrArmed

/-- A valid Type query and the transmission of its answer put an IDLE and the six bytes of R78 on the wire, with the sensor's
configured type code (R78, R145, R148 to R150). That the response row R.TYPE, as one instruction, sends the whole buffer is the
model's choice (notes/assumptions/13.md), not the spec's. -/
def Obligations.TypeExchange : Prop :=
  ∀ (s : State) (i : BitVec 4), ListensForQuery s → i ≠ 0 → sensorType s.cfg (i.toNat - 1) ≠ 0 →
    let t := sensorType s.cfg (i.toNat - 1)
    let body := [0x06, cmdByte 0x9 i, lowByte t, highByte t]
    ∃ p u, exec (.qType i (queryChecksum 0x9 i)) s = .next p ∧ exec (.rType i t (checksum body)) p = .next u ∧
      u.wireOut = s.wireOut ++ .idle :: (selfChecked body).map .byte ∧
      u.ls = .hdl ∧ u.linectl = lineRow .hdl ∧ SameActuators s u ∧ u.filt = s.filt ∧ u.tmrArmed = s.tmrArmed

/-- A valid Value query and the transmission of its answer put an IDLE and the self-checked response in the declared width on
the wire, and leave the sensor's filter one sample further (R79, R146, R148 to R150). That the response rows R.VALUE2 and
R.VALUE4, as one instruction each, send the whole buffer is the model's choice (notes/assumptions/13.md), not the spec's. -/
def Obligations.ValueExchange : Prop :=
  ∀ (s s1 : State) (k : Fin 3) (i : BitVec 4) (raw : Nat), ListensForQuery s → i.toNat = k.val + 1 →
    sensorType s.cfg k.val ≠ 0 → adcRead s.cfg.reg[k].chan s = (some raw, s1) →
    let v := convert s.cfg.conv[k] (filterReport (filterNext s.filt[k] raw))
    let body2 := [0x06, cmdByte 0xA i, v.extractLsb' 0 8, v.extractLsb' 8 8]
    let body4 := [0x08, cmdByte 0xA i, v.extractLsb' 0 8, v.extractLsb' 8 8, v.extractLsb' 16 8, v.extractLsb' 24 8]
    (typeWidth (sensorType s.cfg k.val) = 2 →
      ∃ p u, exec (.qValue i (queryChecksum 0xA i)) s = .next p ∧
        exec (.rValue2 i (v.setWidth 16) (checksum body2)) p = .next u ∧
        u.wireOut = s.wireOut ++ .idle :: (selfChecked body2).map .byte ∧
        u.ls = .hdl ∧ SameActuators s u ∧ u.filt = s.filt.set k (filterNext s.filt[k] raw)) ∧
    (typeWidth (sensorType s.cfg k.val) = 4 →
      ∃ p u, exec (.qValue i (queryChecksum 0xA i)) s = .next p ∧
        exec (.rValue4 i v (checksum body4)) p = .next u ∧
        u.wireOut = s.wireOut ++ .idle :: (selfChecked body4).map .byte ∧
        u.ls = .hdl ∧ SameActuators s u ∧ u.filt = s.filt.set k (filterNext s.filt[k] raw))

/-! ### The other events -/

/-- EV_TXE in HDT pushes the byte at `RB.pos`; the handler that pushes the last byte switches to transmit-complete and enters
HDTR (R149, decision D14). -/
def Obligations.TxePushesOneByte : Prop :=
  ∀ (s : State) (h : s.rb.pos < 8), s.stall = none → s.ls = .hdt → s.linectl = lineRow .hdt →
    (s.rb.pos + 1 ≠ s.rb.len →
      exec .evTxe s = .next { s with
        rb := { s.rb with pos := s.rb.pos + 1 }
        io := s.io ++ [.byte s.rb.data[s.rb.pos]] }) ∧
    (s.rb.pos + 1 = s.rb.len →
      exec .evTxe s = .next { s with
        ls := .hdtr
        rb := { s.rb with pos := s.rb.pos + 1 }
        linectl := lineRow .hdtr
        io := s.io ++ [.byte s.rb.data[s.rb.pos], .line ⟨true, false, true, false, false⟩,
                       .line ⟨true, false, true, false, true⟩] })

/-- EV_TC in HDTR disables the transmitter, enables the receiver and returns to HDL with the parser reset; buffer cursors and
timer keep their values (R150). -/
def Obligations.TcReturnsToListening : Prop :=
  ∀ s : State, s.stall = none → s.ls = .hdtr → s.linectl = lineRow .hdtr →
    exec .evTc s = .next { s with
      ls := .hdl
      fa := { s.fa with sync := false, n := 0, prev := 0x00 }
      linectl := lineRow .hdl
      io := s.io ++ [.line ⟨true, false, true, false, false⟩, .line ⟨true, false, false, false, false⟩,
                     .line ⟨true, true, false, false, false⟩] }

/-- EV_TMO with the timer armed forces the line back to full-duplex from every link state: one-shot, receive-only, hunting, any
unsent response discarded; mixer and watchdog are untouched (R151, decision D17). -/
def Obligations.TmoRevertsToFullDuplex : Prop :=
  ∀ s : State, s.stall = none → s.tmrArmed = true →
    exec .evTmo s = .next { s with
      ls := .fdl
      fa := { s.fa with sync := false, n := 0, prev := 0x00 }
      rb := { s.rb with len := 0, pos := 0 }
      tmrArmed := false
      linectl := ⟨false, true, false, false, false⟩
      io := s.io ++ [.line ⟨false, true, false, false, false⟩] }

/-- EV_RST runs in every state, a stalled one too, and gives every register that has a reset value its value of R39; the traces
restart empty and the configuration stays (R39, decision D36; R250 to R252). That the schedule stays too is the model's
choice (notes/assumptions/2.md). -/
def Obligations.ResetFromAnyState : Prop :=
  ∀ s : State, ∃ t, exec .evRst s = .next t ∧
    t.ls = .fdl ∧ t.fa.sync = false ∧ t.fa.n = 0 ∧ t.fa.prev = 0x00 ∧ t.rb.len = 0 ∧ t.rb.pos = 0 ∧
    t.tmrArmed = false ∧ t.linectl = ⟨false, true, false, false, false⟩ ∧
    (∀ k : Fin 3, t.filt[k].seeded = false) ∧ (∀ j : Fin 4, t.ramp[j] = 0) ∧
    t.wireOut = [] ∧ t.wdgOut = [] ∧ t.stall = none ∧ t.cfg = s.cfg ∧ t.inbox = s.inbox

/-! ### Sensors -/

/-- `SensorType(k)` is 0 out of range and for an absent sensor, else the configured type code (R100). -/
def Obligations.SensorTypeLookup : Prop :=
  ∀ (cfg : ConfigRec) (k : Nat),
    (3 ≤ k → sensorType cfg k = 0) ∧
    (∀ h : k < 3, (cfg.reg[k].chan = 0 → sensorType cfg k = 0) ∧
      (cfg.reg[k].chan ≠ 0 → sensorType cfg k = cfg.reg[k].type))

/-- The filter update and the conversion as equations on numbers. The first sample seeds `raw * 128` and is reported exactly; each
later one gives `raw + acc - acc / 128`, which never wraps for readings of up to 24 bits (R103, decision D18). The conversion's
signed 32-bit result is `((f * mul) >> 12) - off`, the shift a floor and taken first, for every reading of `RAW_BITS` bits under
the constraints of R6, or the entry of its table (R105, decision D21; the two forms of the data are the model's choice,
notes/assumptions/4.md). -/
def Obligations.FilterAndConversionExact : Prop :=
  (∀ (f : Filter) (raw : Nat), raw < 2 ^ 24 →
    (filterNext f raw).seeded = true ∧
    filterReport (filterNext f raw) = (filterNext f raw).acc.toNat / 128 ∧
    (f.seeded = false → (filterNext f raw).acc.toNat = raw * 128 ∧ filterReport (filterNext f raw) = raw) ∧
    (f.seeded = true → f.acc.toNat < 2 ^ 31 →
      (filterNext f raw).acc.toNat = raw + f.acc.toNat - f.acc.toNat / 128)) ∧
  (∀ (bits f : Nat) (mul off : Int), convFits bits (.scaled mul off) = true → f < 2 ^ bits →
    (convert (.scaled mul off) f).toInt = f * mul / 4096 - off) ∧
  (∀ (values : List Word32) (f : Nat) (h : f < values.length), convert (.table values) f = values[f])

/-- The accumulator never leaves its `RAW_BITS + 7` bits (R104 e, R40 I8). -/
def Obligations.FilterStaysInRange : Prop :=
  ∀ (f : Filter) (raw bits : Nat), bits ≤ 24 → raw < 2 ^ bits → (f.seeded = true → f.acc.toNat < 2 ^ (bits + 7)) →
    (filterNext f raw).acc.toNat < 2 ^ (bits + 7)

/-- For a constant input the report moves toward it without passing it, reaches it exactly and stays there (R104 b to d). -/
def Obligations.FilterConverges : Prop :=
  ∀ (f : Filter) (raw bits : Nat), bits ≤ 24 → raw < 2 ^ bits → f.seeded = true → f.acc.toNat < 2 ^ (bits + 7) →
    (∀ n, (filterReport (filterRun f raw n) ≤ raw →
        filterReport (filterRun f raw n) ≤ filterReport (filterRun f raw (n + 1)) ∧
        filterReport (filterRun f raw (n + 1)) ≤ raw) ∧
      (raw ≤ filterReport (filterRun f raw n) →
        filterReport (filterRun f raw (n + 1)) ≤ filterReport (filterRun f raw n) ∧
        raw ≤ filterReport (filterRun f raw (n + 1)))) ∧
    ∃ N, ∀ n, N ≤ n → filterReport (filterRun f raw n) = raw

/-! ### Mixer -/

/-- `Switch3`: strictly below the low threshold 0, strictly above the high one 2, else 1 (R171, decision D25). -/
def Obligations.SwitchPositions : Prop :=
  ∀ (cfg : ConfigRec) (v : Int), cfg.swLo ≤ cfg.swHi →
    (v < cfg.swLo → switch3 cfg v = 0) ∧ (cfg.swHi < v → switch3 cfg v = 2) ∧
    (cfg.swLo ≤ v → v ≤ cfg.swHi → switch3 cfg v = 1)

/-- The valve curve is 0 exactly below `VALVE_MIN` and never falls, in every legal configuration; in its two-slope form it runs at
half ratio from 1 up to `VALVE_KNEE`, and from there at ratio 1 referenced to the midpoint of the two thresholds (R176, R6,
decision D27). -/
def Obligations.ValveCurveShape : Prop :=
  ∀ cfg : ConfigRec, decodeOk cfg = true →
    (∀ m, vcurve cfg m = 0 ↔ m < cfg.valveMin) ∧ (∀ m n, m ≤ n → vcurve cfg m ≤ vcurve cfg n) ∧
    (cfg.vcurve = .twoSlope → ∀ m, cfg.valveMin ≤ m →
      vcurve cfg m = if m < cfg.valveKnee then 1 + (m - cfg.valveMin) / 2 else m - (cfg.valveMin + cfg.valveKnee) / 2)

/-- The valve function: centred and trimmed, zero inside the deadband, odd about the trimmed centre; reused as a drive input it
is the trimmed offset itself (R173, R174, R192). -/
def Obligations.ValveDecode : Prop :=
  ∀ (cfg : ConfigRec) (trim e : Int), decodeOk cfg = true →
    valve cfg (1500 + trim + e) trim true = e ∧
    valve cfg (1500 + trim + e) trim false = - valve cfg (1500 + trim - e) trim false ∧
    (valve cfg (1500 + trim + e) trim false = 0 ↔ e.natAbs < cfg.valveMin) ∧
    (0 ≤ e → valve cfg (1500 + trim + e) trim false = vcurve cfg e.natAbs)

/-- Without a snap the ramp moves toward its target by at most one step and never passes it: by exactly one step where the target
is farther away, else to the target; with a snap it is at the target at once (R182). The reference snap is a centred target from
past the midpoint, both comparisons strict (R183, decision D30). -/
def Obligations.RampLimitedAndNoOvershoot : Prop :=
  ∀ (cfg : ConfigRec) (target prev : Int) (step : Nat),
    (snaps cfg target prev = true → rampTo cfg target prev step = target) ∧
    (snaps cfg target prev = false →
      (prev ≤ target → prev ≤ rampTo cfg target prev step ∧ rampTo cfg target prev step ≤ target ∧
        rampTo cfg target prev step ≤ prev + step) ∧
      (target ≤ prev → target ≤ rampTo cfg target prev step ∧ rampTo cfg target prev step ≤ prev ∧
        prev - step ≤ rampTo cfg target prev step) ∧
      (prev + step < target → rampTo cfg target prev step = prev + step) ∧
      (target < prev - step → rampTo cfg target prev step = prev - step) ∧
      ((target - prev).natAbs ≤ step → rampTo cfg target prev step = target)) ∧
    (cfg.snap = .centred → (snaps cfg target prev = true ↔ target.natAbs < cfg.rampDb ∧ cfg.rampMid < prev.natAbs))

/-- With a constant target the ramped value is at the target after at most as many invocations as it was units away, whatever
the snap predicate, and stays there (R182, R194). -/
def Obligations.RampReachesTarget : Prop :=
  ∀ (cfg : ConfigRec) (target prev : Int) (step n : Nat), 1 ≤ step → (target - prev).natAbs ≤ n →
    rampRun cfg target step prev n = target

/-- `Mix()` from channels to outputs. The switch that `DRIVE_SW` names gives the mode, the other one `aux` (R172); the three valve
and three drive values come from their channels (R175, R177) and are combined by the formulas of the mode (R180), which for RC
are those of R181; the four targets are ramped, the valve commands not (R184); each duty is 1500 plus its command between the
clamps of its class, the pump's with its kick when the ramped value is not 0 and its off duty when it is (R186, R187); the
outputs follow `DOUTF`, for RC that of R190. The mixer writes these registers, ends with one watchdog kick (R191), and leaves
everything else (R193). -/
def Obligations.MixWritesOutputs : Prop :=
  ∀ s : State,
    let c := s.cfg
    let mode := if c.driveSw = .ch6 then switch3 c s.cvs[6] else switch3 c s.cvs[7]
    let aux := if c.driveSw = .ch6 then switch3 c s.cvs[7] else switch3 c s.cvs[6]
    let v : MixIn :=
      { vB := valve c s.cvs[c.chBucket] c.trim[0] c.dm[mode].bucket
        vM := valve c s.cvs[c.chBoom] c.trim[1] c.dm[mode].boom
        vS := valve c s.cvs[c.chStick] c.trim[2] c.dm[mode].stick
        d0 := s.cvs[c.chDrv0] - 1500
        d1 := s.cvs[c.chDrv1] - 1500
        d2 := s.cvs[c.chDrv2] - 1500 }
    let m := mixTargets c mode v
    let r := (mix s).ramp
    let limited := fun (d : Int) (lo hi : Nat) => if d < lo then (lo : Int) else if hi < d then (hi : Int) else d
    (mix s).driveSel = mode ∧
    (c.mixf = rc.mixf →
      m = if mode = 0 then ⟨v.vB.natAbs + v.vM.natAbs + v.vS.natAbs, v.d0, v.d1, v.d2, v.vB, v.vM, v.vS⟩
        else if mode = 1 then ⟨v.vB.natAbs + v.vM.natAbs, v.d0 + v.vS, v.d0 - v.vS, v.d2, v.vB, v.vM, 0⟩
        else ⟨v.vB.natAbs + v.vS.natAbs, v.d0 + v.vM, v.d0 - v.vM, v.d2, v.vB, 0, v.vS⟩) ∧
    r = #v[rampTo c m.tp s.ramp[0] c.pumpStep, rampTo c m.t0 s.ramp[1] c.drvStep, rampTo c m.t1 s.ramp[2] c.drvStep,
      rampTo c m.t2 s.ramp[3] c.drvStep] ∧
    (mix s).pumpActive = (r[0] != 0) ∧
    (∀ n : Fin 7, (mix s).duty[n] = BitVec.ofInt 16 (match c.pwmMap[n] with
      | .bucket => limited ((1500 : Int) + m.cB) c.valveDutyMin c.valveDutyMax
      | .boom => limited ((1500 : Int) + m.cM) c.valveDutyMin c.valveDutyMax
      | .stick => limited ((1500 : Int) + m.cS) c.valveDutyMin c.valveDutyMax
      | .pump => if r[0] = 0 then c.pumpOffDuty else limited ((1500 : Int) + c.pumpKick + r[0]) c.pumpDutyMin c.pumpDutyMax
      | .drive0 => limited ((1500 : Int) + r[1]) c.drvDutyMin c.drvDutyMax
      | .drive1 => limited ((1500 : Int) + r[2]) c.drvDutyMin c.drvDutyMax
      | .drive2 => limited ((1500 : Int) + r[3]) c.drvDutyMin c.drvDutyMax)) ∧
    (∀ n : Fin 3, (mix s).dout[n] = doutLevel c n mode aux (mix s).pumpActive) ∧
    (c.doutf = rc.doutf → (mix s).dout = #v[decide (1 ≤ aux), decide (aux = 2), (mix s).pumpActive]) ∧
    (mix s).wdgOut = s.wdgOut ++ [.kick] ∧ (mix s).wireOut = s.wireOut ∧ (mix s).io.getLast? = some .kick ∧
    mix s = { s with
      driveSel := (mix s).driveSel, ramp := (mix s).ramp, pumpActive := (mix s).pumpActive, duty := (mix s).duty,
      dout := (mix s).dout, io := (mix s).io }

/-- Every duty a mix writes lies within the clamps of its output class, except the pump's when the ramped pump value is 0: it is
then the off duty, which R6 does not place within the clamps (R185 to R188, R194). That no duty limit exceeds 16 bits is the
model's choice (notes/assumptions/25.md). -/
def Obligations.DutiesWithinClamps : Prop :=
  ∀ (s : State) (n : Fin 7), outputsOk s.cfg = true →
    match s.cfg.pwmMap[n] with
    | .pump =>
      if (mix s).ramp[0] = 0 then (mix s).duty[n].toNat = s.cfg.pumpOffDuty
      else s.cfg.pumpDutyMin ≤ (mix s).duty[n].toNat ∧ (mix s).duty[n].toNat ≤ s.cfg.pumpDutyMax
    | .drive0 | .drive1 | .drive2 =>
      s.cfg.drvDutyMin ≤ (mix s).duty[n].toNat ∧ (mix s).duty[n].toNat ≤ s.cfg.drvDutyMax
    | .bucket | .boom | .stick =>
      s.cfg.valveDutyMin ≤ (mix s).duty[n].toNat ∧ (mix s).duty[n].toNat ≤ s.cfg.valveDutyMax

/-- What a mix does depends on the channels, the ramp memory and the configuration only: two states that agree on these get the
same outputs and the same operations, whatever else they hold (R170, R194). -/
def Obligations.MixReadsOnlyItsInputs : Prop :=
  ∀ s t : State, t.cvs = s.cvs → t.ramp = s.ramp → t.cfg = s.cfg →
    SameActuators (mix s) (mix t) ∧ ∃ ops, (mix s).io = s.io ++ ops ∧ (mix t).io = t.io ++ ops
end

