-- ==== Sys2Proof/Laws/Codec.lean ====
section
/-! SUPPORT. The bit-field and byte-order laws the decoder and the encoder rest on (20_memory R51, 30_encoding R75, R84). -/

namespace Sys2Proof.Machine

@[simp] theorem lowByte_pair (a b : Byte) : lowByte (pair a b) = a := by
  ext i hi
  have h : i < 16 := by omega
  simp [lowByte, pair, hi, h]

@[simp] theorem highByte_pair (a b : Byte) : highByte (pair a b) = b := by
  ext i hi
  have h : i < 16 := by omega
  have h' : 8 + i < 16 := by omega
  simp [highByte, pair, h', BitVec.getLsbD_eq_getElem hi]

@[simp] theorem pair_low_high (w : Word16) : pair (lowByte w) (highByte w) = w := by
  ext i hi
  simp only [pair, lowByte, highByte, BitVec.getElem_or, BitVec.getElem_shiftLeft, BitVec.getElem_setWidth,
    BitVec.getLsbD_extractLsb']
  by_cases h : i < 8
  · simp [h, BitVec.getLsbD_eq_getElem hi]
  · have e : 8 + (i - 8) = i := by omega
    have h1 : i - 8 < 8 := by omega
    simp [h, e, h1, BitVec.getLsbD_eq_getElem hi]

@[simp] theorem cmdOp_cmdByte (op i : BitVec 4) : cmdOp (cmdByte op i) = op := by
  revert op i; decide

@[simp] theorem cmdIndex_cmdByte (op i : BitVec 4) : cmdIndex (cmdByte op i) = i := by
  revert op i; decide

@[simp] theorem cmdByte_fields (c : Byte) : cmdByte (cmdOp c) (cmdIndex c) = c := by
  revert c; decide

/-- The code field of an event pattern (R84). -/
@[simp] theorem eventWord_code (c : BitVec 3) (b : Byte) : (eventWord c b).extractLsb' 8 3 = c := by
  ext j hj
  have h : 8 + j < 11 := by omega
  simp [eventWord, h, BitVec.getLsbD_eq_getElem hj]

/-- The operand field of an event pattern (R84). -/
@[simp] theorem eventWord_operand (c : BitVec 3) (b : Byte) : (eventWord c b).extractLsb' 0 8 = b := by
  ext j hj
  have h : j < 11 := by omega
  simp [eventWord, hj, h]

/-- An event pattern is its two fields (R84). -/
theorem eventWord_fields (w : BitVec 11) : eventWord (w.extractLsb' 8 3) (w.extractLsb' 0 8) = w := by
  ext i hi
  simp only [eventWord, BitVec.getElem_or, BitVec.getElem_shiftLeft, BitVec.getElem_setWidth,
    BitVec.getLsbD_extractLsb']
  by_cases h : i < 8
  · simp [h, BitVec.getLsbD_eq_getElem hi]
  · have e : 8 + (i - 8) = i := by omega
    have h1 : i - 8 < 3 := by omega
    simp [h, e, h1, BitVec.getLsbD_eq_getElem hi]

/-- Putting the four bytes of a 32-bit value back together gives the value (R51). -/
@[simp] theorem word32Of_bytes (v : Word32) :
    word32Of (v.extractLsb' 0 8) (v.extractLsb' 8 8) (v.extractLsb' 16 8) (v.extractLsb' 24 8) = v := by
  ext i hi
  simp only [word32Of, BitVec.getElem_or, BitVec.getElem_shiftLeft, BitVec.getElem_setWidth,
    BitVec.getLsbD_extractLsb']
  have : i < 8 ∨ (8 ≤ i ∧ i < 16) ∨ (16 ≤ i ∧ i < 24) ∨ 24 ≤ i := by omega
  rcases this with h | ⟨h, h'⟩ | ⟨h, h'⟩ | h
  · have a1 : i < 16 := by omega
    have a2 : i < 24 := by omega
    simp [h, a1, a2, BitVec.getLsbD_eq_getElem hi]
  · have e : 8 + (i - 8) = i := by omega
    have a0 : ¬ i < 8 := by omega
    have a1 : i - 8 < 8 := by omega
    have a2 : i < 24 := by omega
    simp [a0, a1, a2, h', e, BitVec.getLsbD_eq_getElem hi]
  · have e : 16 + (i - 16) = i := by omega
    have a0 : ¬ i < 8 := by omega
    have a4 : ¬ i < 16 := by omega
    have a1 : i - 16 < 8 := by omega
    have a2 : ¬ i - 8 < 8 := by omega
    simp [a0, a1, a2, a4, h', e, BitVec.getLsbD_eq_getElem hi]
  · have e : 24 + (i - 24) = i := by omega
    have a0 : ¬ i < 8 := by omega
    have a4 : ¬ i < 16 := by omega
    have a5 : ¬ i < 24 := by omega
    have a1 : i - 24 < 8 := by omega
    have a2 : ¬ i - 8 < 8 := by omega
    have a6 : ¬ i - 16 < 8 := by omega
    simp [a0, a1, a2, a4, a5, a6, e, BitVec.getLsbD_eq_getElem hi]

/-- The four bytes of a value put together from bytes are these bytes (R51). -/
@[simp] theorem bytes32_word32Of (b0 b1 b2 b3 : Byte) : bytes32 (word32Of b0 b1 b2 b3) = [b0, b1, b2, b3] := by
  simp only [bytes32, word32Of, List.cons.injEq, and_true]
  refine ⟨?_, ?_, ?_, ?_⟩ <;> ext i hi <;>
    simp only [BitVec.getElem_extractLsb', BitVec.getLsbD_or, BitVec.getLsbD_shiftLeft, BitVec.getLsbD_setWidth]
  · have a1 : i < 16 := by omega
    have a2 : i < 24 := by omega
    have a3 : i < 32 := by omega
    simp [hi, a1, a2, a3]
  · have h0 : ¬ 8 + i < 8 := by omega
    have h1 : 8 + i < 16 := by omega
    have h2 : 8 + i < 24 := by omega
    have h3 : 8 + i < 32 := by omega
    have h4 : i < 32 := by omega
    simp [h1, h2, h3, h4, BitVec.getLsbD_eq_getElem hi]
  · have h1 : ¬ 16 + i < 16 := by omega
    have h2 : 16 + i < 24 := by omega
    have h3 : 16 + i < 32 := by omega
    have h4 : i < 32 := by omega
    have h5 : b0.getLsbD (16 + i) = false := BitVec.getLsbD_of_ge b0 _ (by omega)
    have h6 : b1.getLsbD (16 + i - 8) = false := BitVec.getLsbD_of_ge b1 _ (by omega)
    simp [h2, h3, h4, h5, h6, BitVec.getLsbD_eq_getElem hi]
  · have h3 : 24 + i < 32 := by omega
    have h4 : i < 32 := by omega
    have h5 : b0.getLsbD (24 + i) = false := BitVec.getLsbD_of_ge b0 _ (by omega)
    have h6 : b1.getLsbD (24 + i - 8) = false := BitVec.getLsbD_of_ge b1 _ (by omega)
    have h7 : b2.getLsbD (24 + i - 16) = false := BitVec.getLsbD_of_ge b2 _ (by omega)
    simp [h3, h4, h5, h6, h7, BitVec.getLsbD_eq_getElem hi]

@[simp] theorem pairBytes_length (ws : List Word16) : (pairBytes ws).length = 2 * ws.length := by
  induction ws with
  | nil => rfl
  | cons w ws ih => simp [pairBytes, ih]; omega

/-- Taking the pairs of the bytes of pairs gives the pairs back (R72). -/
@[simp] theorem pairsOf_pairBytes (ws : List Word16) : pairsOf (pairBytes ws) = ws := by
  induction ws with
  | nil => rfl
  | cons w ws ih => simp [pairBytes, pairsOf, ih]

end Sys2Proof.Machine
end

