-- ==== Sys2Proof/Laws/State.lean ====
section
/-! SUPPORT. One lemma per field per named update of the state, each true by definition. -/

namespace Sys2Proof.Machine

/-! ### `emit` -/

@[simp] theorem emit_ls (op : IoOp) (s : State) : (emit op s).ls = s.ls := rfl
@[simp] theorem emit_fa (op : IoOp) (s : State) : (emit op s).fa = s.fa := rfl
@[simp] theorem emit_tf (op : IoOp) (s : State) : (emit op s).tf = s.tf := rfl
@[simp] theorem emit_cvs (op : IoOp) (s : State) : (emit op s).cvs = s.cvs := rfl
@[simp] theorem emit_qcmd (op : IoOp) (s : State) : (emit op s).qcmd = s.qcmd := rfl
@[simp] theorem emit_rb (op : IoOp) (s : State) : (emit op s).rb = s.rb := rfl
@[simp] theorem emit_tmrArmed (op : IoOp) (s : State) : (emit op s).tmrArmed = s.tmrArmed := rfl
@[simp] theorem emit_linectl (op : IoOp) (s : State) : (emit op s).linectl = s.linectl := rfl
@[simp] theorem emit_filt (op : IoOp) (s : State) : (emit op s).filt = s.filt := rfl
@[simp] theorem emit_ramp (op : IoOp) (s : State) : (emit op s).ramp = s.ramp := rfl
@[simp] theorem emit_duty (op : IoOp) (s : State) : (emit op s).duty = s.duty := rfl
@[simp] theorem emit_dout (op : IoOp) (s : State) : (emit op s).dout = s.dout := rfl
@[simp] theorem emit_pumpActive (op : IoOp) (s : State) : (emit op s).pumpActive = s.pumpActive := rfl
@[simp] theorem emit_driveSel (op : IoOp) (s : State) : (emit op s).driveSel = s.driveSel := rfl
@[simp] theorem emit_cfg (op : IoOp) (s : State) : (emit op s).cfg = s.cfg := rfl
@[simp] theorem emit_stall (op : IoOp) (s : State) : (emit op s).stall = s.stall := rfl
@[simp] theorem emit_io (op : IoOp) (s : State) : (emit op s).io = s.io ++ [op] := rfl
@[simp] theorem emit_drops (op : IoOp) (s : State) : (emit op s).drops = s.drops := rfl
@[simp] theorem emit_adc (op : IoOp) (s : State) : (emit op s).adc = s.adc := rfl
@[simp] theorem emit_draws (op : IoOp) (s : State) : (emit op s).draws = s.draws := rfl
@[simp] theorem emit_inbox (op : IoOp) (s : State) : (emit op s).inbox = s.inbox := rfl

/-! ### `txPush` -/

@[simp] theorem txPush_ls (b : Byte) (s : State) : (txPush b s).ls = s.ls := rfl
@[simp] theorem txPush_fa (b : Byte) (s : State) : (txPush b s).fa = s.fa := rfl
@[simp] theorem txPush_tf (b : Byte) (s : State) : (txPush b s).tf = s.tf := rfl
@[simp] theorem txPush_cvs (b : Byte) (s : State) : (txPush b s).cvs = s.cvs := rfl
@[simp] theorem txPush_qcmd (b : Byte) (s : State) : (txPush b s).qcmd = s.qcmd := rfl
@[simp] theorem txPush_rb (b : Byte) (s : State) : (txPush b s).rb = s.rb := rfl
@[simp] theorem txPush_tmrArmed (b : Byte) (s : State) : (txPush b s).tmrArmed = s.tmrArmed := rfl
@[simp] theorem txPush_linectl (b : Byte) (s : State) : (txPush b s).linectl = s.linectl := rfl
@[simp] theorem txPush_filt (b : Byte) (s : State) : (txPush b s).filt = s.filt := rfl
@[simp] theorem txPush_ramp (b : Byte) (s : State) : (txPush b s).ramp = s.ramp := rfl
@[simp] theorem txPush_duty (b : Byte) (s : State) : (txPush b s).duty = s.duty := rfl
@[simp] theorem txPush_dout (b : Byte) (s : State) : (txPush b s).dout = s.dout := rfl
@[simp] theorem txPush_pumpActive (b : Byte) (s : State) : (txPush b s).pumpActive = s.pumpActive := rfl
@[simp] theorem txPush_driveSel (b : Byte) (s : State) : (txPush b s).driveSel = s.driveSel := rfl
@[simp] theorem txPush_cfg (b : Byte) (s : State) : (txPush b s).cfg = s.cfg := rfl
@[simp] theorem txPush_stall (b : Byte) (s : State) : (txPush b s).stall = s.stall := rfl
@[simp] theorem txPush_io (b : Byte) (s : State) : (txPush b s).io = s.io ++ [.byte b] := rfl
@[simp] theorem txPush_drops (b : Byte) (s : State) : (txPush b s).drops = s.drops := rfl
@[simp] theorem txPush_adc (b : Byte) (s : State) : (txPush b s).adc = s.adc := rfl
@[simp] theorem txPush_draws (b : Byte) (s : State) : (txPush b s).draws = s.draws := rfl
@[simp] theorem txPush_inbox (b : Byte) (s : State) : (txPush b s).inbox = s.inbox := rfl

/-! ### `txIdle` -/

@[simp] theorem txIdle_ls (s : State) : (txIdle s).ls = s.ls := rfl
@[simp] theorem txIdle_fa (s : State) : (txIdle s).fa = s.fa := rfl
@[simp] theorem txIdle_tf (s : State) : (txIdle s).tf = s.tf := rfl
@[simp] theorem txIdle_cvs (s : State) : (txIdle s).cvs = s.cvs := rfl
@[simp] theorem txIdle_qcmd (s : State) : (txIdle s).qcmd = s.qcmd := rfl
@[simp] theorem txIdle_rb (s : State) : (txIdle s).rb = s.rb := rfl
@[simp] theorem txIdle_tmrArmed (s : State) : (txIdle s).tmrArmed = s.tmrArmed := rfl
@[simp] theorem txIdle_linectl (s : State) : (txIdle s).linectl = s.linectl := rfl
@[simp] theorem txIdle_filt (s : State) : (txIdle s).filt = s.filt := rfl
@[simp] theorem txIdle_ramp (s : State) : (txIdle s).ramp = s.ramp := rfl
@[simp] theorem txIdle_duty (s : State) : (txIdle s).duty = s.duty := rfl
@[simp] theorem txIdle_dout (s : State) : (txIdle s).dout = s.dout := rfl
@[simp] theorem txIdle_pumpActive (s : State) : (txIdle s).pumpActive = s.pumpActive := rfl
@[simp] theorem txIdle_driveSel (s : State) : (txIdle s).driveSel = s.driveSel := rfl
@[simp] theorem txIdle_cfg (s : State) : (txIdle s).cfg = s.cfg := rfl
@[simp] theorem txIdle_stall (s : State) : (txIdle s).stall = s.stall := rfl
@[simp] theorem txIdle_io (s : State) : (txIdle s).io = s.io ++ [.idle] := rfl
@[simp] theorem txIdle_drops (s : State) : (txIdle s).drops = s.drops := rfl
@[simp] theorem txIdle_adc (s : State) : (txIdle s).adc = s.adc := rfl
@[simp] theorem txIdle_draws (s : State) : (txIdle s).draws = s.draws := rfl
@[simp] theorem txIdle_inbox (s : State) : (txIdle s).inbox = s.inbox := rfl

/-! ### `timerArm` -/

@[simp] theorem timerArm_ls (s : State) : (timerArm s).ls = s.ls := rfl
@[simp] theorem timerArm_fa (s : State) : (timerArm s).fa = s.fa := rfl
@[simp] theorem timerArm_tf (s : State) : (timerArm s).tf = s.tf := rfl
@[simp] theorem timerArm_cvs (s : State) : (timerArm s).cvs = s.cvs := rfl
@[simp] theorem timerArm_qcmd (s : State) : (timerArm s).qcmd = s.qcmd := rfl
@[simp] theorem timerArm_rb (s : State) : (timerArm s).rb = s.rb := rfl
@[simp] theorem timerArm_tmrArmed (s : State) : (timerArm s).tmrArmed = true := rfl
@[simp] theorem timerArm_linectl (s : State) : (timerArm s).linectl = s.linectl := rfl
@[simp] theorem timerArm_filt (s : State) : (timerArm s).filt = s.filt := rfl
@[simp] theorem timerArm_ramp (s : State) : (timerArm s).ramp = s.ramp := rfl
@[simp] theorem timerArm_duty (s : State) : (timerArm s).duty = s.duty := rfl
@[simp] theorem timerArm_dout (s : State) : (timerArm s).dout = s.dout := rfl
@[simp] theorem timerArm_pumpActive (s : State) : (timerArm s).pumpActive = s.pumpActive := rfl
@[simp] theorem timerArm_driveSel (s : State) : (timerArm s).driveSel = s.driveSel := rfl
@[simp] theorem timerArm_cfg (s : State) : (timerArm s).cfg = s.cfg := rfl
@[simp] theorem timerArm_stall (s : State) : (timerArm s).stall = s.stall := rfl
@[simp] theorem timerArm_io (s : State) : (timerArm s).io = s.io ++ [.arm] := rfl
@[simp] theorem timerArm_drops (s : State) : (timerArm s).drops = s.drops := rfl
@[simp] theorem timerArm_adc (s : State) : (timerArm s).adc = s.adc := rfl
@[simp] theorem timerArm_draws (s : State) : (timerArm s).draws = s.draws := rfl
@[simp] theorem timerArm_inbox (s : State) : (timerArm s).inbox = s.inbox := rfl

/-! ### `pwmWrite` -/

@[simp] theorem pwmWrite_ls (n : Fin 7) (d : Word16) (s : State) : (pwmWrite n d s).ls = s.ls := rfl
@[simp] theorem pwmWrite_fa (n : Fin 7) (d : Word16) (s : State) : (pwmWrite n d s).fa = s.fa := rfl
@[simp] theorem pwmWrite_tf (n : Fin 7) (d : Word16) (s : State) : (pwmWrite n d s).tf = s.tf := rfl
@[simp] theorem pwmWrite_cvs (n : Fin 7) (d : Word16) (s : State) : (pwmWrite n d s).cvs = s.cvs := rfl
@[simp] theorem pwmWrite_qcmd (n : Fin 7) (d : Word16) (s : State) : (pwmWrite n d s).qcmd = s.qcmd := rfl
@[simp] theorem pwmWrite_rb (n : Fin 7) (d : Word16) (s : State) : (pwmWrite n d s).rb = s.rb := rfl
@[simp] theorem pwmWrite_tmrArmed (n : Fin 7) (d : Word16) (s : State) : (pwmWrite n d s).tmrArmed = s.tmrArmed := rfl
@[simp] theorem pwmWrite_linectl (n : Fin 7) (d : Word16) (s : State) : (pwmWrite n d s).linectl = s.linectl := rfl
@[simp] theorem pwmWrite_filt (n : Fin 7) (d : Word16) (s : State) : (pwmWrite n d s).filt = s.filt := rfl
@[simp] theorem pwmWrite_ramp (n : Fin 7) (d : Word16) (s : State) : (pwmWrite n d s).ramp = s.ramp := rfl
@[simp] theorem pwmWrite_duty (n : Fin 7) (d : Word16) (s : State) : (pwmWrite n d s).duty = s.duty.set n d := rfl
@[simp] theorem pwmWrite_dout (n : Fin 7) (d : Word16) (s : State) : (pwmWrite n d s).dout = s.dout := rfl
@[simp] theorem pwmWrite_pumpActive (n : Fin 7) (d : Word16) (s : State) : (pwmWrite n d s).pumpActive = s.pumpActive := rfl
@[simp] theorem pwmWrite_driveSel (n : Fin 7) (d : Word16) (s : State) : (pwmWrite n d s).driveSel = s.driveSel := rfl
@[simp] theorem pwmWrite_cfg (n : Fin 7) (d : Word16) (s : State) : (pwmWrite n d s).cfg = s.cfg := rfl
@[simp] theorem pwmWrite_stall (n : Fin 7) (d : Word16) (s : State) : (pwmWrite n d s).stall = s.stall := rfl
@[simp] theorem pwmWrite_io (n : Fin 7) (d : Word16) (s : State) : (pwmWrite n d s).io = s.io ++ [.pwm n d] := rfl
@[simp] theorem pwmWrite_drops (n : Fin 7) (d : Word16) (s : State) : (pwmWrite n d s).drops = s.drops := rfl
@[simp] theorem pwmWrite_adc (n : Fin 7) (d : Word16) (s : State) : (pwmWrite n d s).adc = s.adc := rfl
@[simp] theorem pwmWrite_draws (n : Fin 7) (d : Word16) (s : State) : (pwmWrite n d s).draws = s.draws := rfl
@[simp] theorem pwmWrite_inbox (n : Fin 7) (d : Word16) (s : State) : (pwmWrite n d s).inbox = s.inbox := rfl

/-! ### `pinWrite` -/

@[simp] theorem pinWrite_ls (n : Fin 3) (v : Bool) (s : State) : (pinWrite n v s).ls = s.ls := rfl
@[simp] theorem pinWrite_fa (n : Fin 3) (v : Bool) (s : State) : (pinWrite n v s).fa = s.fa := rfl
@[simp] theorem pinWrite_tf (n : Fin 3) (v : Bool) (s : State) : (pinWrite n v s).tf = s.tf := rfl
@[simp] theorem pinWrite_cvs (n : Fin 3) (v : Bool) (s : State) : (pinWrite n v s).cvs = s.cvs := rfl
@[simp] theorem pinWrite_qcmd (n : Fin 3) (v : Bool) (s : State) : (pinWrite n v s).qcmd = s.qcmd := rfl
@[simp] theorem pinWrite_rb (n : Fin 3) (v : Bool) (s : State) : (pinWrite n v s).rb = s.rb := rfl
@[simp] theorem pinWrite_tmrArmed (n : Fin 3) (v : Bool) (s : State) : (pinWrite n v s).tmrArmed = s.tmrArmed := rfl
@[simp] theorem pinWrite_linectl (n : Fin 3) (v : Bool) (s : State) : (pinWrite n v s).linectl = s.linectl := rfl
@[simp] theorem pinWrite_filt (n : Fin 3) (v : Bool) (s : State) : (pinWrite n v s).filt = s.filt := rfl
@[simp] theorem pinWrite_ramp (n : Fin 3) (v : Bool) (s : State) : (pinWrite n v s).ramp = s.ramp := rfl
@[simp] theorem pinWrite_duty (n : Fin 3) (v : Bool) (s : State) : (pinWrite n v s).duty = s.duty := rfl
@[simp] theorem pinWrite_dout (n : Fin 3) (v : Bool) (s : State) : (pinWrite n v s).dout = s.dout.set n v := rfl
@[simp] theorem pinWrite_pumpActive (n : Fin 3) (v : Bool) (s : State) : (pinWrite n v s).pumpActive = s.pumpActive := rfl
@[simp] theorem pinWrite_driveSel (n : Fin 3) (v : Bool) (s : State) : (pinWrite n v s).driveSel = s.driveSel := rfl
@[simp] theorem pinWrite_cfg (n : Fin 3) (v : Bool) (s : State) : (pinWrite n v s).cfg = s.cfg := rfl
@[simp] theorem pinWrite_stall (n : Fin 3) (v : Bool) (s : State) : (pinWrite n v s).stall = s.stall := rfl
@[simp] theorem pinWrite_io (n : Fin 3) (v : Bool) (s : State) : (pinWrite n v s).io = s.io ++ [.pin n v] := rfl
@[simp] theorem pinWrite_drops (n : Fin 3) (v : Bool) (s : State) : (pinWrite n v s).drops = s.drops := rfl
@[simp] theorem pinWrite_adc (n : Fin 3) (v : Bool) (s : State) : (pinWrite n v s).adc = s.adc := rfl
@[simp] theorem pinWrite_draws (n : Fin 3) (v : Bool) (s : State) : (pinWrite n v s).draws = s.draws := rfl
@[simp] theorem pinWrite_inbox (n : Fin 3) (v : Bool) (s : State) : (pinWrite n v s).inbox = s.inbox := rfl

/-! ### `wdgKick` -/

@[simp] theorem wdgKick_ls (s : State) : (wdgKick s).ls = s.ls := rfl
@[simp] theorem wdgKick_fa (s : State) : (wdgKick s).fa = s.fa := rfl
@[simp] theorem wdgKick_tf (s : State) : (wdgKick s).tf = s.tf := rfl
@[simp] theorem wdgKick_cvs (s : State) : (wdgKick s).cvs = s.cvs := rfl
@[simp] theorem wdgKick_qcmd (s : State) : (wdgKick s).qcmd = s.qcmd := rfl
@[simp] theorem wdgKick_rb (s : State) : (wdgKick s).rb = s.rb := rfl
@[simp] theorem wdgKick_tmrArmed (s : State) : (wdgKick s).tmrArmed = s.tmrArmed := rfl
@[simp] theorem wdgKick_linectl (s : State) : (wdgKick s).linectl = s.linectl := rfl
@[simp] theorem wdgKick_filt (s : State) : (wdgKick s).filt = s.filt := rfl
@[simp] theorem wdgKick_ramp (s : State) : (wdgKick s).ramp = s.ramp := rfl
@[simp] theorem wdgKick_duty (s : State) : (wdgKick s).duty = s.duty := rfl
@[simp] theorem wdgKick_dout (s : State) : (wdgKick s).dout = s.dout := rfl
@[simp] theorem wdgKick_pumpActive (s : State) : (wdgKick s).pumpActive = s.pumpActive := rfl
@[simp] theorem wdgKick_driveSel (s : State) : (wdgKick s).driveSel = s.driveSel := rfl
@[simp] theorem wdgKick_cfg (s : State) : (wdgKick s).cfg = s.cfg := rfl
@[simp] theorem wdgKick_stall (s : State) : (wdgKick s).stall = s.stall := rfl
@[simp] theorem wdgKick_io (s : State) : (wdgKick s).io = s.io ++ [.kick] := rfl
@[simp] theorem wdgKick_drops (s : State) : (wdgKick s).drops = s.drops := rfl
@[simp] theorem wdgKick_adc (s : State) : (wdgKick s).adc = s.adc := rfl
@[simp] theorem wdgKick_draws (s : State) : (wdgKick s).draws = s.draws := rfl
@[simp] theorem wdgKick_inbox (s : State) : (wdgKick s).inbox = s.inbox := rfl

/-! ### `lineWrite` -/

@[simp] theorem lineWrite_ls (v : LineCtl) (s : State) : (lineWrite v s).ls = s.ls := rfl
@[simp] theorem lineWrite_fa (v : LineCtl) (s : State) : (lineWrite v s).fa = s.fa := rfl
@[simp] theorem lineWrite_tf (v : LineCtl) (s : State) : (lineWrite v s).tf = s.tf := rfl
@[simp] theorem lineWrite_cvs (v : LineCtl) (s : State) : (lineWrite v s).cvs = s.cvs := rfl
@[simp] theorem lineWrite_qcmd (v : LineCtl) (s : State) : (lineWrite v s).qcmd = s.qcmd := rfl
@[simp] theorem lineWrite_rb (v : LineCtl) (s : State) : (lineWrite v s).rb = s.rb := rfl
@[simp] theorem lineWrite_tmrArmed (v : LineCtl) (s : State) : (lineWrite v s).tmrArmed = s.tmrArmed := rfl
@[simp] theorem lineWrite_linectl (v : LineCtl) (s : State) : (lineWrite v s).linectl = v := rfl
@[simp] theorem lineWrite_filt (v : LineCtl) (s : State) : (lineWrite v s).filt = s.filt := rfl
@[simp] theorem lineWrite_ramp (v : LineCtl) (s : State) : (lineWrite v s).ramp = s.ramp := rfl
@[simp] theorem lineWrite_duty (v : LineCtl) (s : State) : (lineWrite v s).duty = s.duty := rfl
@[simp] theorem lineWrite_dout (v : LineCtl) (s : State) : (lineWrite v s).dout = s.dout := rfl
@[simp] theorem lineWrite_pumpActive (v : LineCtl) (s : State) : (lineWrite v s).pumpActive = s.pumpActive := rfl
@[simp] theorem lineWrite_driveSel (v : LineCtl) (s : State) : (lineWrite v s).driveSel = s.driveSel := rfl
@[simp] theorem lineWrite_cfg (v : LineCtl) (s : State) : (lineWrite v s).cfg = s.cfg := rfl
@[simp] theorem lineWrite_stall (v : LineCtl) (s : State) : (lineWrite v s).stall = s.stall := rfl
@[simp] theorem lineWrite_io (v : LineCtl) (s : State) : (lineWrite v s).io = s.io ++ [.line v] := rfl
@[simp] theorem lineWrite_drops (v : LineCtl) (s : State) : (lineWrite v s).drops = s.drops := rfl
@[simp] theorem lineWrite_adc (v : LineCtl) (s : State) : (lineWrite v s).adc = s.adc := rfl
@[simp] theorem lineWrite_draws (v : LineCtl) (s : State) : (lineWrite v s).draws = s.draws := rfl
@[simp] theorem lineWrite_inbox (v : LineCtl) (s : State) : (lineWrite v s).inbox = s.inbox := rfl

/-! ### `setHd` -/

@[simp] theorem setHd_ls (v : Bool) (s : State) : (setHd v s).ls = s.ls := rfl
@[simp] theorem setHd_fa (v : Bool) (s : State) : (setHd v s).fa = s.fa := rfl
@[simp] theorem setHd_tf (v : Bool) (s : State) : (setHd v s).tf = s.tf := rfl
@[simp] theorem setHd_cvs (v : Bool) (s : State) : (setHd v s).cvs = s.cvs := rfl
@[simp] theorem setHd_qcmd (v : Bool) (s : State) : (setHd v s).qcmd = s.qcmd := rfl
@[simp] theorem setHd_rb (v : Bool) (s : State) : (setHd v s).rb = s.rb := rfl
@[simp] theorem setHd_tmrArmed (v : Bool) (s : State) : (setHd v s).tmrArmed = s.tmrArmed := rfl
@[simp] theorem setHd_linectl (v : Bool) (s : State) : (setHd v s).linectl = { s.linectl with hd := v } := rfl
@[simp] theorem setHd_filt (v : Bool) (s : State) : (setHd v s).filt = s.filt := rfl
@[simp] theorem setHd_ramp (v : Bool) (s : State) : (setHd v s).ramp = s.ramp := rfl
@[simp] theorem setHd_duty (v : Bool) (s : State) : (setHd v s).duty = s.duty := rfl
@[simp] theorem setHd_dout (v : Bool) (s : State) : (setHd v s).dout = s.dout := rfl
@[simp] theorem setHd_pumpActive (v : Bool) (s : State) : (setHd v s).pumpActive = s.pumpActive := rfl
@[simp] theorem setHd_driveSel (v : Bool) (s : State) : (setHd v s).driveSel = s.driveSel := rfl
@[simp] theorem setHd_cfg (v : Bool) (s : State) : (setHd v s).cfg = s.cfg := rfl
@[simp] theorem setHd_stall (v : Bool) (s : State) : (setHd v s).stall = s.stall := rfl
@[simp] theorem setHd_io (v : Bool) (s : State) : (setHd v s).io = s.io ++ [.line { s.linectl with hd := v }] := rfl
@[simp] theorem setHd_drops (v : Bool) (s : State) : (setHd v s).drops = s.drops := rfl
@[simp] theorem setHd_adc (v : Bool) (s : State) : (setHd v s).adc = s.adc := rfl
@[simp] theorem setHd_draws (v : Bool) (s : State) : (setHd v s).draws = s.draws := rfl
@[simp] theorem setHd_inbox (v : Bool) (s : State) : (setHd v s).inbox = s.inbox := rfl

/-! ### `setRe` -/

@[simp] theorem setRe_ls (v : Bool) (s : State) : (setRe v s).ls = s.ls := rfl
@[simp] theorem setRe_fa (v : Bool) (s : State) : (setRe v s).fa = s.fa := rfl
@[simp] theorem setRe_tf (v : Bool) (s : State) : (setRe v s).tf = s.tf := rfl
@[simp] theorem setRe_cvs (v : Bool) (s : State) : (setRe v s).cvs = s.cvs := rfl
@[simp] theorem setRe_qcmd (v : Bool) (s : State) : (setRe v s).qcmd = s.qcmd := rfl
@[simp] theorem setRe_rb (v : Bool) (s : State) : (setRe v s).rb = s.rb := rfl
@[simp] theorem setRe_tmrArmed (v : Bool) (s : State) : (setRe v s).tmrArmed = s.tmrArmed := rfl
@[simp] theorem setRe_linectl (v : Bool) (s : State) : (setRe v s).linectl = { s.linectl with re := v } := rfl
@[simp] theorem setRe_filt (v : Bool) (s : State) : (setRe v s).filt = s.filt := rfl
@[simp] theorem setRe_ramp (v : Bool) (s : State) : (setRe v s).ramp = s.ramp := rfl
@[simp] theorem setRe_duty (v : Bool) (s : State) : (setRe v s).duty = s.duty := rfl
@[simp] theorem setRe_dout (v : Bool) (s : State) : (setRe v s).dout = s.dout := rfl
@[simp] theorem setRe_pumpActive (v : Bool) (s : State) : (setRe v s).pumpActive = s.pumpActive := rfl
@[simp] theorem setRe_driveSel (v : Bool) (s : State) : (setRe v s).driveSel = s.driveSel := rfl
@[simp] theorem setRe_cfg (v : Bool) (s : State) : (setRe v s).cfg = s.cfg := rfl
@[simp] theorem setRe_stall (v : Bool) (s : State) : (setRe v s).stall = s.stall := rfl
@[simp] theorem setRe_io (v : Bool) (s : State) : (setRe v s).io = s.io ++ [.line { s.linectl with re := v }] := rfl
@[simp] theorem setRe_drops (v : Bool) (s : State) : (setRe v s).drops = s.drops := rfl
@[simp] theorem setRe_adc (v : Bool) (s : State) : (setRe v s).adc = s.adc := rfl
@[simp] theorem setRe_draws (v : Bool) (s : State) : (setRe v s).draws = s.draws := rfl
@[simp] theorem setRe_inbox (v : Bool) (s : State) : (setRe v s).inbox = s.inbox := rfl

/-! ### `setTe` -/

@[simp] theorem setTe_ls (v : Bool) (s : State) : (setTe v s).ls = s.ls := rfl
@[simp] theorem setTe_fa (v : Bool) (s : State) : (setTe v s).fa = s.fa := rfl
@[simp] theorem setTe_tf (v : Bool) (s : State) : (setTe v s).tf = s.tf := rfl
@[simp] theorem setTe_cvs (v : Bool) (s : State) : (setTe v s).cvs = s.cvs := rfl
@[simp] theorem setTe_qcmd (v : Bool) (s : State) : (setTe v s).qcmd = s.qcmd := rfl
@[simp] theorem setTe_rb (v : Bool) (s : State) : (setTe v s).rb = s.rb := rfl
@[simp] theorem setTe_tmrArmed (v : Bool) (s : State) : (setTe v s).tmrArmed = s.tmrArmed := rfl
@[simp] theorem setTe_linectl (v : Bool) (s : State) : (setTe v s).linectl = { s.linectl with te := v } := rfl
@[simp] theorem setTe_filt (v : Bool) (s : State) : (setTe v s).filt = s.filt := rfl
@[simp] theorem setTe_ramp (v : Bool) (s : State) : (setTe v s).ramp = s.ramp := rfl
@[simp] theorem setTe_duty (v : Bool) (s : State) : (setTe v s).duty = s.duty := rfl
@[simp] theorem setTe_dout (v : Bool) (s : State) : (setTe v s).dout = s.dout := rfl
@[simp] theorem setTe_pumpActive (v : Bool) (s : State) : (setTe v s).pumpActive = s.pumpActive := rfl
@[simp] theorem setTe_driveSel (v : Bool) (s : State) : (setTe v s).driveSel = s.driveSel := rfl
@[simp] theorem setTe_cfg (v : Bool) (s : State) : (setTe v s).cfg = s.cfg := rfl
@[simp] theorem setTe_stall (v : Bool) (s : State) : (setTe v s).stall = s.stall := rfl
@[simp] theorem setTe_io (v : Bool) (s : State) : (setTe v s).io = s.io ++ [.line { s.linectl with te := v }] := rfl
@[simp] theorem setTe_drops (v : Bool) (s : State) : (setTe v s).drops = s.drops := rfl
@[simp] theorem setTe_adc (v : Bool) (s : State) : (setTe v s).adc = s.adc := rfl
@[simp] theorem setTe_draws (v : Bool) (s : State) : (setTe v s).draws = s.draws := rfl
@[simp] theorem setTe_inbox (v : Bool) (s : State) : (setTe v s).inbox = s.inbox := rfl

/-! ### `setTxeie` -/

@[simp] theorem setTxeie_ls (v : Bool) (s : State) : (setTxeie v s).ls = s.ls := rfl
@[simp] theorem setTxeie_fa (v : Bool) (s : State) : (setTxeie v s).fa = s.fa := rfl
@[simp] theorem setTxeie_tf (v : Bool) (s : State) : (setTxeie v s).tf = s.tf := rfl
@[simp] theorem setTxeie_cvs (v : Bool) (s : State) : (setTxeie v s).cvs = s.cvs := rfl
@[simp] theorem setTxeie_qcmd (v : Bool) (s : State) : (setTxeie v s).qcmd = s.qcmd := rfl
@[simp] theorem setTxeie_rb (v : Bool) (s : State) : (setTxeie v s).rb = s.rb := rfl
@[simp] theorem setTxeie_tmrArmed (v : Bool) (s : State) : (setTxeie v s).tmrArmed = s.tmrArmed := rfl
@[simp] theorem setTxeie_linectl (v : Bool) (s : State) : (setTxeie v s).linectl = { s.linectl with txeie := v } := rfl
@[simp] theorem setTxeie_filt (v : Bool) (s : State) : (setTxeie v s).filt = s.filt := rfl
@[simp] theorem setTxeie_ramp (v : Bool) (s : State) : (setTxeie v s).ramp = s.ramp := rfl
@[simp] theorem setTxeie_duty (v : Bool) (s : State) : (setTxeie v s).duty = s.duty := rfl
@[simp] theorem setTxeie_dout (v : Bool) (s : State) : (setTxeie v s).dout = s.dout := rfl
@[simp] theorem setTxeie_pumpActive (v : Bool) (s : State) : (setTxeie v s).pumpActive = s.pumpActive := rfl
@[simp] theorem setTxeie_driveSel (v : Bool) (s : State) : (setTxeie v s).driveSel = s.driveSel := rfl
@[simp] theorem setTxeie_cfg (v : Bool) (s : State) : (setTxeie v s).cfg = s.cfg := rfl
@[simp] theorem setTxeie_stall (v : Bool) (s : State) : (setTxeie v s).stall = s.stall := rfl
@[simp] theorem setTxeie_io (v : Bool) (s : State) : (setTxeie v s).io = s.io ++ [.line { s.linectl with txeie := v }] := rfl
@[simp] theorem setTxeie_drops (v : Bool) (s : State) : (setTxeie v s).drops = s.drops := rfl
@[simp] theorem setTxeie_adc (v : Bool) (s : State) : (setTxeie v s).adc = s.adc := rfl
@[simp] theorem setTxeie_draws (v : Bool) (s : State) : (setTxeie v s).draws = s.draws := rfl
@[simp] theorem setTxeie_inbox (v : Bool) (s : State) : (setTxeie v s).inbox = s.inbox := rfl

/-! ### `setTcie` -/

@[simp] theorem setTcie_ls (v : Bool) (s : State) : (setTcie v s).ls = s.ls := rfl
@[simp] theorem setTcie_fa (v : Bool) (s : State) : (setTcie v s).fa = s.fa := rfl
@[simp] theorem setTcie_tf (v : Bool) (s : State) : (setTcie v s).tf = s.tf := rfl
@[simp] theorem setTcie_cvs (v : Bool) (s : State) : (setTcie v s).cvs = s.cvs := rfl
@[simp] theorem setTcie_qcmd (v : Bool) (s : State) : (setTcie v s).qcmd = s.qcmd := rfl
@[simp] theorem setTcie_rb (v : Bool) (s : State) : (setTcie v s).rb = s.rb := rfl
@[simp] theorem setTcie_tmrArmed (v : Bool) (s : State) : (setTcie v s).tmrArmed = s.tmrArmed := rfl
@[simp] theorem setTcie_linectl (v : Bool) (s : State) : (setTcie v s).linectl = { s.linectl with tcie := v } := rfl
@[simp] theorem setTcie_filt (v : Bool) (s : State) : (setTcie v s).filt = s.filt := rfl
@[simp] theorem setTcie_ramp (v : Bool) (s : State) : (setTcie v s).ramp = s.ramp := rfl
@[simp] theorem setTcie_duty (v : Bool) (s : State) : (setTcie v s).duty = s.duty := rfl
@[simp] theorem setTcie_dout (v : Bool) (s : State) : (setTcie v s).dout = s.dout := rfl
@[simp] theorem setTcie_pumpActive (v : Bool) (s : State) : (setTcie v s).pumpActive = s.pumpActive := rfl
@[simp] theorem setTcie_driveSel (v : Bool) (s : State) : (setTcie v s).driveSel = s.driveSel := rfl
@[simp] theorem setTcie_cfg (v : Bool) (s : State) : (setTcie v s).cfg = s.cfg := rfl
@[simp] theorem setTcie_stall (v : Bool) (s : State) : (setTcie v s).stall = s.stall := rfl
@[simp] theorem setTcie_io (v : Bool) (s : State) : (setTcie v s).io = s.io ++ [.line { s.linectl with tcie := v }] := rfl
@[simp] theorem setTcie_drops (v : Bool) (s : State) : (setTcie v s).drops = s.drops := rfl
@[simp] theorem setTcie_adc (v : Bool) (s : State) : (setTcie v s).adc = s.adc := rfl
@[simp] theorem setTcie_draws (v : Bool) (s : State) : (setTcie v s).draws = s.draws := rfl
@[simp] theorem setTcie_inbox (v : Bool) (s : State) : (setTcie v s).inbox = s.inbox := rfl

/-! ### `setLs` -/

@[simp] theorem setLs_ls (v : LinkState) (s : State) : (setLs v s).ls = v := rfl
@[simp] theorem setLs_fa (v : LinkState) (s : State) : (setLs v s).fa = s.fa := rfl
@[simp] theorem setLs_tf (v : LinkState) (s : State) : (setLs v s).tf = s.tf := rfl
@[simp] theorem setLs_cvs (v : LinkState) (s : State) : (setLs v s).cvs = s.cvs := rfl
@[simp] theorem setLs_qcmd (v : LinkState) (s : State) : (setLs v s).qcmd = s.qcmd := rfl
@[simp] theorem setLs_rb (v : LinkState) (s : State) : (setLs v s).rb = s.rb := rfl
@[simp] theorem setLs_tmrArmed (v : LinkState) (s : State) : (setLs v s).tmrArmed = s.tmrArmed := rfl
@[simp] theorem setLs_linectl (v : LinkState) (s : State) : (setLs v s).linectl = s.linectl := rfl
@[simp] theorem setLs_filt (v : LinkState) (s : State) : (setLs v s).filt = s.filt := rfl
@[simp] theorem setLs_ramp (v : LinkState) (s : State) : (setLs v s).ramp = s.ramp := rfl
@[simp] theorem setLs_duty (v : LinkState) (s : State) : (setLs v s).duty = s.duty := rfl
@[simp] theorem setLs_dout (v : LinkState) (s : State) : (setLs v s).dout = s.dout := rfl
@[simp] theorem setLs_pumpActive (v : LinkState) (s : State) : (setLs v s).pumpActive = s.pumpActive := rfl
@[simp] theorem setLs_driveSel (v : LinkState) (s : State) : (setLs v s).driveSel = s.driveSel := rfl
@[simp] theorem setLs_cfg (v : LinkState) (s : State) : (setLs v s).cfg = s.cfg := rfl
@[simp] theorem setLs_stall (v : LinkState) (s : State) : (setLs v s).stall = s.stall := rfl
@[simp] theorem setLs_io (v : LinkState) (s : State) : (setLs v s).io = s.io := rfl
@[simp] theorem setLs_drops (v : LinkState) (s : State) : (setLs v s).drops = s.drops := rfl
@[simp] theorem setLs_adc (v : LinkState) (s : State) : (setLs v s).adc = s.adc := rfl
@[simp] theorem setLs_draws (v : LinkState) (s : State) : (setLs v s).draws = s.draws := rfl
@[simp] theorem setLs_inbox (v : LinkState) (s : State) : (setLs v s).inbox = s.inbox := rfl

/-! ### `faReset` -/

@[simp] theorem faReset_ls (s : State) : (faReset s).ls = s.ls := rfl
@[simp] theorem faReset_fa (s : State) : (faReset s).fa = { s.fa with sync := false, n := 0, prev := 0x00 } := rfl
@[simp] theorem faReset_tf (s : State) : (faReset s).tf = s.tf := rfl
@[simp] theorem faReset_cvs (s : State) : (faReset s).cvs = s.cvs := rfl
@[simp] theorem faReset_qcmd (s : State) : (faReset s).qcmd = s.qcmd := rfl
@[simp] theorem faReset_rb (s : State) : (faReset s).rb = s.rb := rfl
@[simp] theorem faReset_tmrArmed (s : State) : (faReset s).tmrArmed = s.tmrArmed := rfl
@[simp] theorem faReset_linectl (s : State) : (faReset s).linectl = s.linectl := rfl
@[simp] theorem faReset_filt (s : State) : (faReset s).filt = s.filt := rfl
@[simp] theorem faReset_ramp (s : State) : (faReset s).ramp = s.ramp := rfl
@[simp] theorem faReset_duty (s : State) : (faReset s).duty = s.duty := rfl
@[simp] theorem faReset_dout (s : State) : (faReset s).dout = s.dout := rfl
@[simp] theorem faReset_pumpActive (s : State) : (faReset s).pumpActive = s.pumpActive := rfl
@[simp] theorem faReset_driveSel (s : State) : (faReset s).driveSel = s.driveSel := rfl
@[simp] theorem faReset_cfg (s : State) : (faReset s).cfg = s.cfg := rfl
@[simp] theorem faReset_stall (s : State) : (faReset s).stall = s.stall := rfl
@[simp] theorem faReset_io (s : State) : (faReset s).io = s.io := rfl
@[simp] theorem faReset_drops (s : State) : (faReset s).drops = s.drops := rfl
@[simp] theorem faReset_adc (s : State) : (faReset s).adc = s.adc := rfl
@[simp] theorem faReset_draws (s : State) : (faReset s).draws = s.draws := rfl
@[simp] theorem faReset_inbox (s : State) : (faReset s).inbox = s.inbox := rfl

/-! ### `publish` -/

@[simp] theorem publish_ls (s : State) : (publish s).ls = s.ls := rfl
@[simp] theorem publish_fa (s : State) : (publish s).fa = s.fa := rfl
@[simp] theorem publish_tf (s : State) : (publish s).tf = s.tf := rfl
@[simp] theorem publish_cvs (s : State) : (publish s).cvs = s.tf.map fun v => (v.toNat : Int) := rfl
@[simp] theorem publish_qcmd (s : State) : (publish s).qcmd = s.qcmd := rfl
@[simp] theorem publish_rb (s : State) : (publish s).rb = s.rb := rfl
@[simp] theorem publish_tmrArmed (s : State) : (publish s).tmrArmed = s.tmrArmed := rfl
@[simp] theorem publish_linectl (s : State) : (publish s).linectl = s.linectl := rfl
@[simp] theorem publish_filt (s : State) : (publish s).filt = s.filt := rfl
@[simp] theorem publish_ramp (s : State) : (publish s).ramp = s.ramp := rfl
@[simp] theorem publish_duty (s : State) : (publish s).duty = s.duty := rfl
@[simp] theorem publish_dout (s : State) : (publish s).dout = s.dout := rfl
@[simp] theorem publish_pumpActive (s : State) : (publish s).pumpActive = s.pumpActive := rfl
@[simp] theorem publish_driveSel (s : State) : (publish s).driveSel = s.driveSel := rfl
@[simp] theorem publish_cfg (s : State) : (publish s).cfg = s.cfg := rfl
@[simp] theorem publish_stall (s : State) : (publish s).stall = s.stall := rfl
@[simp] theorem publish_io (s : State) : (publish s).io = s.io := rfl
@[simp] theorem publish_drops (s : State) : (publish s).drops = s.drops := rfl
@[simp] theorem publish_adc (s : State) : (publish s).adc = s.adc := rfl
@[simp] theorem publish_draws (s : State) : (publish s).draws = s.draws := rfl
@[simp] theorem publish_inbox (s : State) : (publish s).inbox = s.inbox := rfl

/-! ### `raiseDrop` -/

@[simp] theorem raiseDrop_ls (e : ErrorKind) (s : State) : (raiseDrop e s).ls = s.ls := rfl
@[simp] theorem raiseDrop_fa (e : ErrorKind) (s : State) : (raiseDrop e s).fa = s.fa := rfl
@[simp] theorem raiseDrop_tf (e : ErrorKind) (s : State) : (raiseDrop e s).tf = s.tf := rfl
@[simp] theorem raiseDrop_cvs (e : ErrorKind) (s : State) : (raiseDrop e s).cvs = s.cvs := rfl
@[simp] theorem raiseDrop_qcmd (e : ErrorKind) (s : State) : (raiseDrop e s).qcmd = s.qcmd := rfl
@[simp] theorem raiseDrop_rb (e : ErrorKind) (s : State) : (raiseDrop e s).rb = s.rb := rfl
@[simp] theorem raiseDrop_tmrArmed (e : ErrorKind) (s : State) : (raiseDrop e s).tmrArmed = s.tmrArmed := rfl
@[simp] theorem raiseDrop_linectl (e : ErrorKind) (s : State) : (raiseDrop e s).linectl = s.linectl := rfl
@[simp] theorem raiseDrop_filt (e : ErrorKind) (s : State) : (raiseDrop e s).filt = s.filt := rfl
@[simp] theorem raiseDrop_ramp (e : ErrorKind) (s : State) : (raiseDrop e s).ramp = s.ramp := rfl
@[simp] theorem raiseDrop_duty (e : ErrorKind) (s : State) : (raiseDrop e s).duty = s.duty := rfl
@[simp] theorem raiseDrop_dout (e : ErrorKind) (s : State) : (raiseDrop e s).dout = s.dout := rfl
@[simp] theorem raiseDrop_pumpActive (e : ErrorKind) (s : State) : (raiseDrop e s).pumpActive = s.pumpActive := rfl
@[simp] theorem raiseDrop_driveSel (e : ErrorKind) (s : State) : (raiseDrop e s).driveSel = s.driveSel := rfl
@[simp] theorem raiseDrop_cfg (e : ErrorKind) (s : State) : (raiseDrop e s).cfg = s.cfg := rfl
@[simp] theorem raiseDrop_stall (e : ErrorKind) (s : State) : (raiseDrop e s).stall = s.stall := rfl
@[simp] theorem raiseDrop_io (e : ErrorKind) (s : State) : (raiseDrop e s).io = s.io := rfl
@[simp] theorem raiseDrop_drops (e : ErrorKind) (s : State) : (raiseDrop e s).drops = s.drops ++ [e] := rfl
@[simp] theorem raiseDrop_adc (e : ErrorKind) (s : State) : (raiseDrop e s).adc = s.adc := rfl
@[simp] theorem raiseDrop_draws (e : ErrorKind) (s : State) : (raiseDrop e s).draws = s.draws := rfl
@[simp] theorem raiseDrop_inbox (e : ErrorKind) (s : State) : (raiseDrop e s).inbox = s.inbox := rfl

/-! ### `raiseStall` -/

@[simp] theorem raiseStall_ls (c : Nat) (s : State) : (raiseStall c s).ls = s.ls := rfl
@[simp] theorem raiseStall_fa (c : Nat) (s : State) : (raiseStall c s).fa = s.fa := rfl
@[simp] theorem raiseStall_tf (c : Nat) (s : State) : (raiseStall c s).tf = s.tf := rfl
@[simp] theorem raiseStall_cvs (c : Nat) (s : State) : (raiseStall c s).cvs = s.cvs := rfl
@[simp] theorem raiseStall_qcmd (c : Nat) (s : State) : (raiseStall c s).qcmd = s.qcmd := rfl
@[simp] theorem raiseStall_rb (c : Nat) (s : State) : (raiseStall c s).rb = s.rb := rfl
@[simp] theorem raiseStall_tmrArmed (c : Nat) (s : State) : (raiseStall c s).tmrArmed = s.tmrArmed := rfl
@[simp] theorem raiseStall_linectl (c : Nat) (s : State) : (raiseStall c s).linectl = s.linectl := rfl
@[simp] theorem raiseStall_filt (c : Nat) (s : State) : (raiseStall c s).filt = s.filt := rfl
@[simp] theorem raiseStall_ramp (c : Nat) (s : State) : (raiseStall c s).ramp = s.ramp := rfl
@[simp] theorem raiseStall_duty (c : Nat) (s : State) : (raiseStall c s).duty = s.duty := rfl
@[simp] theorem raiseStall_dout (c : Nat) (s : State) : (raiseStall c s).dout = s.dout := rfl
@[simp] theorem raiseStall_pumpActive (c : Nat) (s : State) : (raiseStall c s).pumpActive = s.pumpActive := rfl
@[simp] theorem raiseStall_driveSel (c : Nat) (s : State) : (raiseStall c s).driveSel = s.driveSel := rfl
@[simp] theorem raiseStall_cfg (c : Nat) (s : State) : (raiseStall c s).cfg = s.cfg := rfl
@[simp] theorem raiseStall_stall (c : Nat) (s : State) : (raiseStall c s).stall = some c := rfl
@[simp] theorem raiseStall_io (c : Nat) (s : State) : (raiseStall c s).io = s.io := rfl
@[simp] theorem raiseStall_drops (c : Nat) (s : State) : (raiseStall c s).drops = s.drops := rfl
@[simp] theorem raiseStall_adc (c : Nat) (s : State) : (raiseStall c s).adc = s.adc := rfl
@[simp] theorem raiseStall_draws (c : Nat) (s : State) : (raiseStall c s).draws = s.draws := rfl
@[simp] theorem raiseStall_inbox (c : Nat) (s : State) : (raiseStall c s).inbox = s.inbox := rfl

/-! ### `setPumpActive` -/

@[simp] theorem setPumpActive_ls (s : State) : (setPumpActive s).ls = s.ls := rfl
@[simp] theorem setPumpActive_fa (s : State) : (setPumpActive s).fa = s.fa := rfl
@[simp] theorem setPumpActive_tf (s : State) : (setPumpActive s).tf = s.tf := rfl
@[simp] theorem setPumpActive_cvs (s : State) : (setPumpActive s).cvs = s.cvs := rfl
@[simp] theorem setPumpActive_qcmd (s : State) : (setPumpActive s).qcmd = s.qcmd := rfl
@[simp] theorem setPumpActive_rb (s : State) : (setPumpActive s).rb = s.rb := rfl
@[simp] theorem setPumpActive_tmrArmed (s : State) : (setPumpActive s).tmrArmed = s.tmrArmed := rfl
@[simp] theorem setPumpActive_linectl (s : State) : (setPumpActive s).linectl = s.linectl := rfl
@[simp] theorem setPumpActive_filt (s : State) : (setPumpActive s).filt = s.filt := rfl
@[simp] theorem setPumpActive_ramp (s : State) : (setPumpActive s).ramp = s.ramp := rfl
@[simp] theorem setPumpActive_duty (s : State) : (setPumpActive s).duty = s.duty := rfl
@[simp] theorem setPumpActive_dout (s : State) : (setPumpActive s).dout = s.dout := rfl
@[simp] theorem setPumpActive_pumpActive (s : State) : (setPumpActive s).pumpActive = (s.ramp[0] != 0) := rfl
@[simp] theorem setPumpActive_driveSel (s : State) : (setPumpActive s).driveSel = s.driveSel := rfl
@[simp] theorem setPumpActive_cfg (s : State) : (setPumpActive s).cfg = s.cfg := rfl
@[simp] theorem setPumpActive_stall (s : State) : (setPumpActive s).stall = s.stall := rfl
@[simp] theorem setPumpActive_io (s : State) : (setPumpActive s).io = s.io := rfl
@[simp] theorem setPumpActive_drops (s : State) : (setPumpActive s).drops = s.drops := rfl
@[simp] theorem setPumpActive_adc (s : State) : (setPumpActive s).adc = s.adc := rfl
@[simp] theorem setPumpActive_draws (s : State) : (setPumpActive s).draws = s.draws := rfl
@[simp] theorem setPumpActive_inbox (s : State) : (setPumpActive s).inbox = s.inbox := rfl

/-! ### `setDriveSel` -/

@[simp] theorem setDriveSel_ls (m : Fin 3) (s : State) : (setDriveSel m s).ls = s.ls := rfl
@[simp] theorem setDriveSel_fa (m : Fin 3) (s : State) : (setDriveSel m s).fa = s.fa := rfl
@[simp] theorem setDriveSel_tf (m : Fin 3) (s : State) : (setDriveSel m s).tf = s.tf := rfl
@[simp] theorem setDriveSel_cvs (m : Fin 3) (s : State) : (setDriveSel m s).cvs = s.cvs := rfl
@[simp] theorem setDriveSel_qcmd (m : Fin 3) (s : State) : (setDriveSel m s).qcmd = s.qcmd := rfl
@[simp] theorem setDriveSel_rb (m : Fin 3) (s : State) : (setDriveSel m s).rb = s.rb := rfl
@[simp] theorem setDriveSel_tmrArmed (m : Fin 3) (s : State) : (setDriveSel m s).tmrArmed = s.tmrArmed := rfl
@[simp] theorem setDriveSel_linectl (m : Fin 3) (s : State) : (setDriveSel m s).linectl = s.linectl := rfl
@[simp] theorem setDriveSel_filt (m : Fin 3) (s : State) : (setDriveSel m s).filt = s.filt := rfl
@[simp] theorem setDriveSel_ramp (m : Fin 3) (s : State) : (setDriveSel m s).ramp = s.ramp := rfl
@[simp] theorem setDriveSel_duty (m : Fin 3) (s : State) : (setDriveSel m s).duty = s.duty := rfl
@[simp] theorem setDriveSel_dout (m : Fin 3) (s : State) : (setDriveSel m s).dout = s.dout := rfl
@[simp] theorem setDriveSel_pumpActive (m : Fin 3) (s : State) : (setDriveSel m s).pumpActive = s.pumpActive := rfl
@[simp] theorem setDriveSel_driveSel (m : Fin 3) (s : State) : (setDriveSel m s).driveSel = m := rfl
@[simp] theorem setDriveSel_cfg (m : Fin 3) (s : State) : (setDriveSel m s).cfg = s.cfg := rfl
@[simp] theorem setDriveSel_stall (m : Fin 3) (s : State) : (setDriveSel m s).stall = s.stall := rfl
@[simp] theorem setDriveSel_io (m : Fin 3) (s : State) : (setDriveSel m s).io = s.io := rfl
@[simp] theorem setDriveSel_drops (m : Fin 3) (s : State) : (setDriveSel m s).drops = s.drops := rfl
@[simp] theorem setDriveSel_adc (m : Fin 3) (s : State) : (setDriveSel m s).adc = s.adc := rfl
@[simp] theorem setDriveSel_draws (m : Fin 3) (s : State) : (setDriveSel m s).draws = s.draws := rfl
@[simp] theorem setDriveSel_inbox (m : Fin 3) (s : State) : (setDriveSel m s).inbox = s.inbox := rfl

/-! ### `fillResponse` -/

@[simp] theorem fillResponse_ls (bs : List Byte) (s : State) : (fillResponse bs s).ls = s.ls := rfl
@[simp] theorem fillResponse_fa (bs : List Byte) (s : State) : (fillResponse bs s).fa = s.fa := rfl
@[simp] theorem fillResponse_tf (bs : List Byte) (s : State) : (fillResponse bs s).tf = s.tf := rfl
@[simp] theorem fillResponse_cvs (bs : List Byte) (s : State) : (fillResponse bs s).cvs = s.cvs := rfl
@[simp] theorem fillResponse_qcmd (bs : List Byte) (s : State) : (fillResponse bs s).qcmd = s.qcmd := rfl
@[simp] theorem fillResponse_rb (bs : List Byte) (s : State) : (fillResponse bs s).rb = { s.rb with data := Vector.ofFn fun j => bs.getD j.val s.rb.data[j], len := bs.length } := rfl
@[simp] theorem fillResponse_tmrArmed (bs : List Byte) (s : State) : (fillResponse bs s).tmrArmed = s.tmrArmed := rfl
@[simp] theorem fillResponse_linectl (bs : List Byte) (s : State) : (fillResponse bs s).linectl = s.linectl := rfl
@[simp] theorem fillResponse_filt (bs : List Byte) (s : State) : (fillResponse bs s).filt = s.filt := rfl
@[simp] theorem fillResponse_ramp (bs : List Byte) (s : State) : (fillResponse bs s).ramp = s.ramp := rfl
@[simp] theorem fillResponse_duty (bs : List Byte) (s : State) : (fillResponse bs s).duty = s.duty := rfl
@[simp] theorem fillResponse_dout (bs : List Byte) (s : State) : (fillResponse bs s).dout = s.dout := rfl
@[simp] theorem fillResponse_pumpActive (bs : List Byte) (s : State) : (fillResponse bs s).pumpActive = s.pumpActive := rfl
@[simp] theorem fillResponse_driveSel (bs : List Byte) (s : State) : (fillResponse bs s).driveSel = s.driveSel := rfl
@[simp] theorem fillResponse_cfg (bs : List Byte) (s : State) : (fillResponse bs s).cfg = s.cfg := rfl
@[simp] theorem fillResponse_stall (bs : List Byte) (s : State) : (fillResponse bs s).stall = s.stall := rfl
@[simp] theorem fillResponse_io (bs : List Byte) (s : State) : (fillResponse bs s).io = s.io := rfl
@[simp] theorem fillResponse_drops (bs : List Byte) (s : State) : (fillResponse bs s).drops = s.drops := rfl
@[simp] theorem fillResponse_adc (bs : List Byte) (s : State) : (fillResponse bs s).adc = s.adc := rfl
@[simp] theorem fillResponse_draws (bs : List Byte) (s : State) : (fillResponse bs s).draws = s.draws := rfl
@[simp] theorem fillResponse_inbox (bs : List Byte) (s : State) : (fillResponse bs s).inbox = s.inbox := rfl

/-! ### What each operation contributes to the observable traces (R11) -/

@[simp] theorem idle_wire : IoOp.wire? (.idle) = some .idle := rfl
@[simp] theorem byte_wire (b : Byte) : IoOp.wire? (.byte b) = some (.byte b) := rfl
@[simp] theorem pwm_wire (n : Fin 7) (d : Word16) : IoOp.wire? (.pwm n d) = none := rfl
@[simp] theorem pin_wire (n : Fin 3) (v : Bool) : IoOp.wire? (.pin n v) = none := rfl
@[simp] theorem kick_wire : IoOp.wire? (.kick) = none := rfl
@[simp] theorem arm_wire : IoOp.wire? (.arm) = none := rfl
@[simp] theorem adc_wire (c : Nat) : IoOp.wire? (.adc c) = none := rfl
@[simp] theorem line_wire (v : LineCtl) : IoOp.wire? (.line v) = none := rfl
@[simp] theorem idle_wdg : IoOp.wdg? (.idle) = none := rfl
@[simp] theorem byte_wdg (b : Byte) : IoOp.wdg? (.byte b) = none := rfl
@[simp] theorem pwm_wdg (n : Fin 7) (d : Word16) : IoOp.wdg? (.pwm n d) = none := rfl
@[simp] theorem pin_wdg (n : Fin 3) (v : Bool) : IoOp.wdg? (.pin n v) = none := rfl
@[simp] theorem kick_wdg : IoOp.wdg? (.kick) = some .kick := rfl
@[simp] theorem arm_wdg : IoOp.wdg? (.arm) = none := rfl
@[simp] theorem adc_wdg (c : Nat) : IoOp.wdg? (.adc c) = none := rfl
@[simp] theorem line_wdg (v : LineCtl) : IoOp.wdg? (.line v) = none := rfl
@[simp] theorem idle_adc : IoOp.adc? (.idle) = none := rfl
@[simp] theorem byte_adc (b : Byte) : IoOp.adc? (.byte b) = none := rfl
@[simp] theorem pwm_adc (n : Fin 7) (d : Word16) : IoOp.adc? (.pwm n d) = none := rfl
@[simp] theorem pin_adc (n : Fin 3) (v : Bool) : IoOp.adc? (.pin n v) = none := rfl
@[simp] theorem kick_adc : IoOp.adc? (.kick) = none := rfl
@[simp] theorem arm_adc : IoOp.adc? (.arm) = none := rfl
@[simp] theorem adc_adc (c : Nat) : IoOp.adc? (.adc c) = some c := rfl
@[simp] theorem line_adc (v : LineCtl) : IoOp.adc? (.line v) = none := rfl
@[simp] theorem idle_isArm : IoOp.isArm (.idle) = false := rfl
@[simp] theorem byte_isArm (b : Byte) : IoOp.isArm (.byte b) = false := rfl
@[simp] theorem pwm_isArm (n : Fin 7) (d : Word16) : IoOp.isArm (.pwm n d) = false := rfl
@[simp] theorem pin_isArm (n : Fin 3) (v : Bool) : IoOp.isArm (.pin n v) = false := rfl
@[simp] theorem kick_isArm : IoOp.isArm (.kick) = false := rfl
@[simp] theorem arm_isArm : IoOp.isArm (.arm) = true := rfl
@[simp] theorem adc_isArm (c : Nat) : IoOp.isArm (.adc c) = false := rfl
@[simp] theorem line_isArm (v : LineCtl) : IoOp.isArm (.line v) = false := rfl

end Sys2Proof.Machine
end

