-- ==== Sys2Proof/Laws/Mixer.lean ====
section
/-! SUPPORT. What the mixer's operations can do: `Mix()` as one record update, its trace, the ramp and the duties
(43_mixer). -/

namespace Sys2Proof.Machine

/-- The operations that `Mix()` performs on its collaborators, in order (R189). -/
def mixIo (s : State) : List IoOp :=
  let d := registerDuty s.cfg (mixRamp s) (mixOut s)
  [.pwm 0 (d 0), .pwm 1 (d 1), .pwm 2 (d 2), .pwm 3 (d 3), .pwm 4 (d 4), .pwm 5 (d 5), .pwm 6 (d 6),
   .pin 0 (mixPin s 0), .pin 1 (mixPin s 1), .pin 2 (mixPin s 2), .kick]

theorem set_all_seven (v : Vector Word16 7) (d : Fin 7 → Word16) :
    ((((((v.set 0 (d 0)).set 1 (d 1)).set 2 (d 2)).set 3 (d 3)).set 4 (d 4)).set 5 (d 5)).set 6 (d 6)
      = Vector.ofFn d := by
  ext i hi
  have : i = 0 ∨ i = 1 ∨ i = 2 ∨ i = 3 ∨ i = 4 ∨ i = 5 ∨ i = 6 := by omega
  rcases this with rfl | rfl | rfl | rfl | rfl | rfl | rfl <;> simp

theorem set_all_three (v : Vector Bool 3) (d : Fin 3 → Bool) :
    ((v.set 0 (d 0)).set 1 (d 1)).set 2 (d 2) = Vector.ofFn d := by
  ext i hi
  have : i = 0 ∨ i = 1 ∨ i = 2 := by omega
  rcases this with rfl | rfl | rfl <;> simp

/-- The seven PWM writes write every compare register and nothing else (R188). -/
theorem pwmWriteAll_eq (d : Fin 7 → Word16) (s : State) :
    pwmWriteAll d s = { s with
      duty := Vector.ofFn d
      io := s.io ++ [.pwm 0 (d 0), .pwm 1 (d 1), .pwm 2 (d 2), .pwm 3 (d 3), .pwm 4 (d 4), .pwm 5 (d 5), .pwm 6 (d 6)] } := by
  simp only [pwmWriteAll, pwmWrite, emit, List.append_assoc, List.cons_append, List.nil_append]
  congr 1
  exact set_all_seven s.duty d

/-- The three pin writes write every digital output and nothing else (R190). -/
theorem pinWriteAll_eq (v : Fin 3 → Bool) (s : State) :
    pinWriteAll v s = { s with
      dout := Vector.ofFn v
      io := s.io ++ [.pin 0 (v 0), .pin 1 (v 1), .pin 2 (v 2)] } := by
  simp only [pinWriteAll, pinWrite, emit, List.append_assoc, List.cons_append, List.nil_append]
  congr 1
  exact set_all_three s.dout v

/-- `Mix()` writes the mixer's registers and the trace, and nothing else (R170, R193). -/
theorem mix_eq (s : State) :
    mix s = { s with
      driveSel := mixMode s
      ramp := mixRamp s
      pumpActive := (mixRamp s)[0] != 0
      duty := Vector.ofFn (registerDuty s.cfg (mixRamp s) (mixOut s))
      dout := Vector.ofFn (mixPin s)
      io := s.io ++ mixIo s } := by
  simp only [mix, pwmWriteAll_eq, pinWriteAll_eq, wdgKick, emit, setPumpActive, setDriveSel, mixIo,
    List.append_assoc, List.cons_append, List.nil_append]

@[simp] theorem mix_ls (s : State) : (mix s).ls = s.ls := by rw [mix_eq]
@[simp] theorem mix_fa (s : State) : (mix s).fa = s.fa := by rw [mix_eq]
@[simp] theorem mix_tf (s : State) : (mix s).tf = s.tf := by rw [mix_eq]
@[simp] theorem mix_cvs (s : State) : (mix s).cvs = s.cvs := by rw [mix_eq]
@[simp] theorem mix_qcmd (s : State) : (mix s).qcmd = s.qcmd := by rw [mix_eq]
@[simp] theorem mix_rb (s : State) : (mix s).rb = s.rb := by rw [mix_eq]
@[simp] theorem mix_tmrArmed (s : State) : (mix s).tmrArmed = s.tmrArmed := by rw [mix_eq]
@[simp] theorem mix_linectl (s : State) : (mix s).linectl = s.linectl := by rw [mix_eq]
@[simp] theorem mix_filt (s : State) : (mix s).filt = s.filt := by rw [mix_eq]
@[simp] theorem mix_ramp (s : State) : (mix s).ramp = mixRamp s := by rw [mix_eq]
@[simp] theorem mix_duty (s : State) :
    (mix s).duty = Vector.ofFn (registerDuty s.cfg (mixRamp s) (mixOut s)) := by rw [mix_eq]
@[simp] theorem mix_dout (s : State) : (mix s).dout = Vector.ofFn (mixPin s) := by rw [mix_eq]
@[simp] theorem mix_pumpActive (s : State) : (mix s).pumpActive = ((mixRamp s)[0] != 0) := by rw [mix_eq]
@[simp] theorem mix_driveSel (s : State) : (mix s).driveSel = mixMode s := by rw [mix_eq]
@[simp] theorem mix_cfg (s : State) : (mix s).cfg = s.cfg := by rw [mix_eq]
@[simp] theorem mix_stall (s : State) : (mix s).stall = s.stall := by rw [mix_eq]
@[simp] theorem mix_io (s : State) : (mix s).io = s.io ++ mixIo s := by rw [mix_eq]
@[simp] theorem mix_drops (s : State) : (mix s).drops = s.drops := by rw [mix_eq]
@[simp] theorem mix_adc (s : State) : (mix s).adc = s.adc := by rw [mix_eq]
@[simp] theorem mix_draws (s : State) : (mix s).draws = s.draws := by rw [mix_eq]
@[simp] theorem mix_inbox (s : State) : (mix s).inbox = s.inbox := by rw [mix_eq]

/-- `Mix()` puts nothing on the wire. -/
@[simp] theorem mixIo_wire (s : State) : (mixIo s).filterMap IoOp.wire? = [] := rfl

/-- `Mix()` kicks the watchdog exactly once (R191). -/
@[simp] theorem mixIo_wdg (s : State) : (mixIo s).filterMap IoOp.wdg? = [.kick] := rfl

/-- `Mix()` asks for no acquisition. -/
@[simp] theorem mixIo_adc (s : State) : (mixIo s).filterMap IoOp.adc? = [] := rfl

/-- `Mix()` does not touch the timer. -/
@[simp] theorem mixIo_arm (s : State) : (mixIo s).countP IoOp.isArm = 0 := rfl

/-- A clamped value lies within its limits. -/
theorem clamp_bounds {v lo hi : Int} (h : lo ≤ hi) : lo ≤ clamp v lo hi ∧ clamp v lo hi ≤ hi := by
  unfold clamp
  split
  · omega
  · split <;> omega

/-- Clamping changes nothing within the limits. -/
theorem clamp_of_mem {v lo hi : Int} (h1 : lo ≤ v) (h2 : v ≤ hi) : clamp v lo hi = v := by
  unfold clamp
  split
  · omega
  · split <;> omega

/-- Everything a ramp step can do: snap, reach the target, or move one step toward it (R182). -/
theorem rampTo_cases (cfg : ConfigRec) (target prev : Int) (step : Nat) :
    (snaps cfg target prev = true ∧ rampTo cfg target prev step = target) ∨
    (snaps cfg target prev = false ∧
      ((target - prev < -(step : Int) ∧ rampTo cfg target prev step = prev - step) ∨
       ((step : Int) < target - prev ∧ rampTo cfg target prev step = prev + step) ∨
       (-(step : Int) ≤ target - prev ∧ target - prev ≤ step ∧ rampTo cfg target prev step = target))) := by
  cases h : snaps cfg target prev with
  | true => exact .inl ⟨rfl, by simp [rampTo, h]⟩
  | false =>
    refine .inr ⟨rfl, ?_⟩
    by_cases h1 : target - prev < -(step : Int)
    · exact .inl ⟨h1, by simp only [rampTo, h, clamp, if_pos h1]; simp; omega⟩
    · by_cases h2 : target - prev > (step : Int)
      · exact .inr (.inl ⟨h2, by simp only [rampTo, h, clamp, if_neg h1, if_pos h2]; simp⟩)
      · exact .inr (.inr ⟨by omega, by omega, by simp only [rampTo, h, clamp, if_neg h1, if_neg h2]; simp⟩)

/-- A ramp from a non-negative value to a non-negative target stays non-negative (R184). -/
theorem rampTo_nonneg {cfg : ConfigRec} {target prev : Int} {step : Nat} (ht : 0 ≤ target) (hp : 0 ≤ prev) :
    0 ≤ rampTo cfg target prev step := by
  rcases rampTo_cases cfg target prev step with ⟨-, h⟩ | ⟨-, h | h | h⟩ <;> omega

/-- `MIXF`'s pump target is never negative (R180). -/
theorem mixOut_tp_nonneg (s : State) : 0 ≤ (mixOut s).tp := by
  simp [mixOut, mixTargets]

/-- The pump's ramp memory stays non-negative through a mix (R184). -/
theorem mixRamp_pump_nonneg {s : State} (h : 0 ≤ s.ramp[0]) : 0 ≤ (mixRamp s)[0] := by
  simpa [mixRamp, rampAll] using rampTo_nonneg (mixOut_tp_nonneg s) h

end Sys2Proof.Machine
end

