-- ==== Sys2Proof/Laws/Link.lean ====
section
/-! SUPPORT. What the link's operations can do: each handler as one record update, and one inversion lemma for each (41_link_servo,
42_link_query, 40_sensor). -/

namespace Sys2Proof.Machine

/-! ### Servo reception -/

/-- The acceptance sequence as one record update (R126). -/
theorem servoAccept_eq (s : State) :
    servoAccept s =
      let p := publish s
      { s with
        ls := .hdl
        fa := { s.fa with sync := false, n := 0, prev := 0x00 }
        cvs := p.cvs
        tmrArmed := true
        linectl := { s.linectl with hd := true }
        driveSel := mixMode p
        ramp := mixRamp p
        pumpActive := (mixRamp p)[0] != 0
        duty := Vector.ofFn (registerDuty p.cfg (mixRamp p) (mixOut p))
        dout := Vector.ofFn (mixPin p)
        io := s.io ++ (mixIo p ++ [.arm, .line { s.linectl with hd := true }]) } := by
  simp only [servoAccept, mix_eq, publish, timerArm, setHd, lineWrite, setLs, faReset, emit,
    List.append_assoc, List.cons_append, List.nil_append]

/-- Everything a received byte can do in FDL (R121 to R127). -/
theorem rxServo_cases (b : Byte) (s : State) :
    (s.fa.prev = Config.hdr0 ∧ b = Config.hdr1 ∧
      rxServo b s = { s with
        fa := ⟨true, 0, b, ckAfterHeader⟩
        drops := if s.fa.sync then s.drops ++ [.resync] else s.drops }) ∨
    (¬ (s.fa.prev = Config.hdr0 ∧ b = Config.hdr1) ∧
      ((s.fa.sync = false ∧ rxServo b s = { s with fa := { s.fa with prev := b } }) ∨
       (s.fa.sync = true ∧ s.fa.n % 2 = 0 ∧
          rxServo b s = { s with fa := { s.fa with prev := b, n := s.fa.n + 1 } }) ∨
       (s.fa.sync = true ∧ s.fa.n % 2 = 1 ∧ s.fa.n / 2 < 14 ∧
          rxServo b s = { s with
            tf := s.tf.setIfInBounds (s.fa.n / 2) (channelValue (pair s.fa.prev b))
            fa := { s.fa with prev := b, ck := ckSub s.fa.ck [s.fa.prev, b], n := s.fa.n + 1 } }) ∨
       (s.fa.sync = true ∧ s.fa.n % 2 = 1 ∧ 14 ≤ s.fa.n / 2 ∧ pair s.fa.prev b ≠ s.fa.ck ∧
          rxServo b s = { s with fa := { s.fa with sync := false, n := 0, prev := b }, drops := s.drops ++ [.cksum] }) ∨
       (s.fa.sync = true ∧ s.fa.n % 2 = 1 ∧ 14 ≤ s.fa.n / 2 ∧ pair s.fa.prev b = s.fa.ck ∧
          rxServo b s = servoAccept { s with fa := { s.fa with sync := false, n := 0, prev := b } }))) := by
  by_cases hh : s.fa.prev = Config.hdr0 ∧ b = Config.hdr1
  · left
    refine ⟨hh.1, hh.2, ?_⟩
    cases hs : s.fa.sync <;> simp [rxServo, hh, headerMatch, raiseDrop, hs]
  · right
    refine ⟨hh, ?_⟩
    cases hs : s.fa.sync with
    | false => left; simp [rxServo, hh, hs]
    | true =>
      right
      by_cases h0 : s.fa.n % 2 = 0
      · left; simp [rxServo, hh, hs, h0]
      · have h1 : s.fa.n % 2 = 1 := by omega
        right
        by_cases hk : s.fa.n / 2 < 14
        · left; simp [rxServo, hh, hs, h1, hk, channelPair]
        · right
          by_cases hw : pair s.fa.prev b = s.fa.ck
          · right; simp [rxServo, hh, hs, h1, hk, checksumPair, hw]; omega
          · left; simp [rxServo, hh, hs, h1, hk, checksumPair, hw, raiseDrop]; omega

/-! ### Responses -/

/-- `StartTx()` as one record update (R148). -/
theorem startTx_eq (s : State) :
    startTx s = { s with
      ls := .hdt
      rb := { s.rb with pos := 0 }
      linectl := { s.linectl with re := false, te := true, txeie := true }
      io := s.io ++
        [.line { s.linectl with re := false }, .line { s.linectl with re := false, te := true }, .idle,
         .line { s.linectl with re := false, te := true, txeie := true }] } := by
  simp only [startTx, setLs, setTxeie, txIdle, setTe, setRe, lineWrite, emit, List.append_assoc, List.cons_append,
    List.nil_append]

/-- What an answered query leaves behind: the response in the buffer and the line turned round (R147, R148). -/
theorem startTx_fill_eq (bs : List Byte) (s : State) :
    startTx (fillResponse bs s) = { s with
      ls := .hdt
      rb := ⟨Vector.ofFn fun j => bs.getD j.val s.rb.data[j], bs.length, 0⟩
      linectl := { s.linectl with re := false, te := true, txeie := true }
      io := s.io ++
        [.line { s.linectl with re := false }, .line { s.linectl with re := false, te := true }, .idle,
         .line { s.linectl with re := false, te := true, txeie := true }] } := by
  rw [startTx_eq]; rfl

/-- A generic response has four bytes more than its value field (R80). -/
@[simp] theorem responseBytes_length (c : Byte) (val : List Byte) : (responseBytes c val).length = val.length + 4 := by
  simp [responseBytes, bytes16]

/-! ### The sensor path -/

/-- Everything an acquisition request can come to (R102): one request in the trace, one answer taken; a value fits
`RAW_BITS` bits. -/
theorem adcRead_cases (chan : Nat) (s : State) :
    ∃ adc draws,
      (adcRead chan s).2 = { s with io := s.io ++ [.adc chan], adc := adc, draws := draws } ∧
      ((adcRead chan s).1 = none ∨ ∃ raw, (adcRead chan s).1 = some raw ∧ raw < 2 ^ s.cfg.rawBits) := by
  have hpos : 0 < 2 ^ s.cfg.rawBits := Nat.two_pow_pos _
  unfold adcRead nextReply
  simp only [emit]
  cases s.adc with
  | cons r rest =>
    cases r with
    | value raw => exact ⟨rest, s.draws, rfl, .inr ⟨_, rfl, Nat.mod_lt _ hpos⟩⟩
    | never => exact ⟨rest, s.draws, rfl, .inl rfl⟩
  | nil =>
    cases Config.adcDraw s.draws with
    | some raw => exact ⟨[], s.draws + 1, rfl, .inr ⟨_, rfl, Nat.mod_lt _ hpos⟩⟩
    | none => exact ⟨[], s.draws + 1, rfl, .inl rfl⟩

/-- Everything `SensorValue(k)` can come to (R101, R106, R107). -/
theorem sensorValue_cases (k : Fin 3) (s : State) :
    (s.cfg.reg[k].chan = 0 ∧ sensorValue k s = (.noValue, s)) ∨
    (s.cfg.reg[k].chan ≠ 0 ∧ ∃ adc draws,
      ((adcRead s.cfg.reg[k].chan s).1 = none ∧
        sensorValue k s = (.stalled,
          { s with io := s.io ++ [.adc s.cfg.reg[k].chan], adc := adc, draws := draws, stall := some s.cfg.reg[k].chan })) ∨
      (∃ raw, raw < 2 ^ s.cfg.rawBits ∧ (adcRead s.cfg.reg[k].chan s).1 = some raw ∧
        sensorValue k s = (.value (convert s.cfg.conv[k] (filterReport (filterNext s.filt[k] raw))),
          { s with io := s.io ++ [.adc s.cfg.reg[k].chan], adc := adc, draws := draws,
                   filt := s.filt.set k (filterNext s.filt[k] raw) }))) := by
  by_cases hc : s.cfg.reg[k].chan = 0
  · left; exact ⟨hc, by rw [sensorValue, if_pos hc]⟩
  · right
    refine ⟨hc, ?_⟩
    obtain ⟨adc, draws, h2, h1⟩ := adcRead_cases s.cfg.reg[k].chan s
    refine ⟨adc, draws, ?_⟩
    have hp : adcRead s.cfg.reg[k].chan s = ((adcRead s.cfg.reg[k].chan s).1, (adcRead s.cfg.reg[k].chan s).2) := rfl
    rcases h1 with h1 | ⟨raw, h1, hlt⟩
    · left
      refine ⟨h1, ?_⟩
      rw [h1, h2] at hp
      rw [sensorValue, if_neg hc, hp]; rfl
    · right
      refine ⟨raw, hlt, h1, ?_⟩
      rw [h1, h2] at hp
      rw [sensorValue, if_neg hc, hp]; rfl

/-! ### Queries -/

/-- A type code that is not 0 belongs to an installed sensor of the table (R100). -/
theorem sensorType_ne_zero {cfg : ConfigRec} {k : Nat} (h : sensorType cfg k ≠ 0) :
    ∃ hk : k < 3, cfg.reg[k].chan ≠ 0 ∧ sensorType cfg k = cfg.reg[k].type := by
  unfold sensorType at h ⊢
  by_cases hk : k < 3
  · refine ⟨hk, ?_⟩
    simp only [hk, dite_true] at h ⊢
    by_cases hc : cfg.reg[k].chan = 0
    · simp [hc] at h
    · simp [hc]
  · simp [hk] at h

/-- A 4-bit index that addresses an installed sensor is 1, 2 or 3 (R60). -/
theorem fin_of_index {n : Nat} (hn : n < 3) : (Fin.ofNat 3 n).val = n := by
  simp [Fin.ofNat, Nat.mod_eq_of_lt hn]

/-- The value bytes of a declared width of 2 or 4 are that many (R146). -/
theorem valueBytes_length {wd : Byte} {v : Word32} (h : wd = 2 ∨ wd = 4) :
    (valueBytes wd v).length = wd.toNat := by
  rcases h with rfl | rfl <;> simp [valueBytes, bytes16, bytes32]

/-- Everything the execution of a verified query can do (R143 to R146): drop it, answer a Probe or Type query, or run a Value
query, which stalls or is answered after one acquisition and one filter update. -/
theorem queryExec_cases (c : Byte) (w : Word16) (s : State) :
    (∃ e, (e = .idx0 ∨ e = .absent ∨ e = .cmd ∨ e = .width) ∧ queryExec c w s = raiseDrop e s) ∨
    (cmdOp c ≠ Config.cmdValue ∧
      ∃ bs : List Byte, (bs.length = 4 ∨ bs.length = 6) ∧ queryExec c w s = startTx (fillResponse bs s)) ∨
    (cmdOp c = Config.cmdValue ∧ ∃ k : Fin 3, k.val + 1 = (cmdIndex c).toNat ∧ s.cfg.reg[k].chan ≠ 0 ∧
      ∃ adc draws,
        queryExec c w s =
          { s with io := s.io ++ [.adc s.cfg.reg[k].chan], adc := adc, draws := draws, stall := some s.cfg.reg[k].chan } ∨
        ∃ raw, raw < 2 ^ s.cfg.rawBits ∧ ∃ bs : List Byte, (bs.length = 6 ∨ bs.length = 8) ∧
          queryExec c w s = startTx (fillResponse bs
            { s with io := s.io ++ [.adc s.cfg.reg[k].chan], adc := adc, draws := draws,
                     filt := s.filt.set k (filterNext s.filt[k] raw) })) := by
  by_cases h0 : (cmdIndex c).toNat = 0
  · exact .inl ⟨.idx0, by simp, by simp [queryExec, h0]⟩
  by_cases ht : sensorType s.cfg ((cmdIndex c).toNat - 1) = 0
  · exact .inl ⟨.absent, by simp, by simp [queryExec, h0, ht]⟩
  by_cases hp : cmdOp c = Config.cmdProbe
  · exact .inr (.inl ⟨by rw [hp]; decide, _, .inl rfl, by rw [queryExec, if_neg h0]; simp only [if_neg ht, if_pos hp]; rfl⟩)
  by_cases hy : cmdOp c = Config.cmdType
  · refine .inr (.inl ⟨by rw [hy]; decide, _, .inr ?_, by
      rw [queryExec, if_neg h0]; simp only [if_neg ht, if_neg hp, if_pos hy]; rfl⟩)
    simp [bytes16]
  by_cases hv : cmdOp c = Config.cmdValue
  · obtain ⟨hk, hc, -⟩ := sensorType_ne_zero ht
    have hkv : (Fin.ofNat 3 ((cmdIndex c).toNat - 1)).val = (cmdIndex c).toNat - 1 := fin_of_index hk
    have hq : queryExec c w s = valueQuery c (Fin.ofNat 3 ((cmdIndex c).toNat - 1))
        (sensorType s.cfg ((cmdIndex c).toNat - 1)) s := by
      rw [queryExec, if_neg h0]; simp only [if_neg ht, if_neg hp, if_neg hy, if_pos hv]
    rw [hq]
    generalize sensorType s.cfg ((cmdIndex c).toNat - 1) = t at *
    generalize Fin.ofNat 3 ((cmdIndex c).toNat - 1) = k at *
    by_cases hw : typeWidth t = 2 ∨ typeWidth t = 4
    · have hck : s.cfg.reg[k].chan ≠ 0 := by simpa [hkv] using hc
      refine .inr (.inr ⟨hv, k, by omega, hck, ?_⟩)
      rcases sensorValue_cases k s with ⟨h, -⟩ | ⟨-, adc, draws, ⟨-, h⟩ | ⟨raw, hr, -, h⟩⟩
      · exact absurd h hck
      · exact ⟨adc, draws, .inl (by rw [valueQuery, if_pos hw, h])⟩
      · refine ⟨adc, draws, .inr ⟨raw, hr, _, ?_, by rw [valueQuery, if_pos hw, h]; rfl⟩⟩
        have := valueBytes_length (v := convert s.cfg.conv[k] (filterReport (filterNext s.filt[k] raw))) hw
        rw [responseBytes_length, this]
        rcases hw with hw | hw <;> simp [hw]
    · exact .inl ⟨.width, by simp, by rw [valueQuery, if_neg hw]⟩
  · exact .inl ⟨.cmd, by simp, by
      rw [queryExec, if_neg h0]; simp only [if_neg ht, if_neg hp, if_neg hy, if_neg hv]⟩

/-- Everything a received byte can do in HDL (R140 to R142). -/
theorem rxQuery_cases (b : Byte) (s : State) :
    (s.fa.n = 0 ∧ b = Config.qlen ∧ rxQuery b s = { s with fa := { s.fa with ck := 0xFFFB, n := 1 } }) ∨
    (s.fa.n = 0 ∧ b ≠ Config.qlen ∧ rxQuery b s = raiseDrop .len s) ∨
    (s.fa.n = 1 ∧ rxQuery b s = { s with qcmd := b, fa := { s.fa with ck := s.fa.ck - b.setWidth 16, n := 2 } }) ∨
    (s.fa.n = 2 ∧ rxQuery b s = { s with fa := { s.fa with prev := b, n := 3 } }) ∨
    (s.fa.n = 3 ∧ pair s.fa.prev b = s.fa.ck ∧
      rxQuery b s = queryExec s.qcmd s.fa.ck { s with fa := { s.fa with n := 0 } }) ∨
    (s.fa.n = 3 ∧ pair s.fa.prev b ≠ s.fa.ck ∧ rxQuery b s = raiseDrop .cksum { s with fa := { s.fa with n := 0 } }) ∨
    (3 < s.fa.n ∧ rxQuery b s = s) := by
  match hn : s.fa.n with
  | 0 =>
    by_cases hb : b = Config.qlen
    · left; refine ⟨rfl, hb, ?_⟩; simp only [rxQuery, hn, rxLength, if_pos hb]; rfl
    · right; left; exact ⟨rfl, hb, by simp only [rxQuery, hn, rxLength, if_neg hb]⟩
  | 1 => right; right; left; exact ⟨rfl, by simp only [rxQuery, hn, rxCommand]⟩
  | 2 => right; right; right; left; exact ⟨rfl, by simp only [rxQuery, hn, rxTrailerLow]⟩
  | 3 =>
    by_cases hw : pair s.fa.prev b = s.fa.ck
    · right; right; right; right; left
      exact ⟨rfl, hw, by simp only [rxQuery, hn, rxTrailerHigh, if_pos hw]; rw [hw]⟩
    · right; right; right; right; right; left
      exact ⟨rfl, hw, by simp only [rxQuery, hn, rxTrailerHigh, if_neg hw]⟩
  | m + 4 => right; right; right; right; right; right; exact ⟨by omega, by simp only [rxQuery, hn]⟩

/-! ### The other events -/

/-- EV_TXE's handler as one record update (R149). -/
theorem txeHandler_eq (b : Byte) (s : State) :
    txeHandler b s =
      if s.rb.pos + 1 = s.rb.len then
        { s with
          ls := .hdtr
          rb := { s.rb with pos := s.rb.pos + 1 }
          linectl := { s.linectl with txeie := false, tcie := true }
          io := s.io ++ [.byte b, .line { s.linectl with txeie := false },
                         .line { s.linectl with txeie := false, tcie := true }] }
      else { s with rb := { s.rb with pos := s.rb.pos + 1 }, io := s.io ++ [.byte b] } := by
  unfold txeHandler
  split <;>
    simp only [txPush, emit, setLs, setTcie, setTxeie, lineWrite, List.append_assoc, List.cons_append, List.nil_append]

/-- EV_TC's handler as one record update (R150). -/
theorem tcHandler_eq (s : State) :
    tcHandler s = { s with
      ls := .hdl
      fa := { s.fa with sync := false, n := 0, prev := 0x00 }
      linectl := { s.linectl with tcie := false, te := false, re := true }
      io := s.io ++ [.line { s.linectl with tcie := false }, .line { s.linectl with tcie := false, te := false },
                     .line { s.linectl with tcie := false, te := false, re := true }] } := by
  simp only [tcHandler, faReset, setLs, setRe, setTe, setTcie, lineWrite, emit, List.append_assoc, List.cons_append,
    List.nil_append]

/-- EV_TMO's handler as one record update (R151). -/
theorem tmoHandler_eq (s : State) :
    tmoHandler s = { s with
      ls := .fdl
      fa := { s.fa with sync := false, n := 0, prev := 0x00 }
      rb := { s.rb with len := 0, pos := 0 }
      tmrArmed := false
      linectl := ⟨false, true, false, false, false⟩
      io := s.io ++ [.line ⟨false, true, false, false, false⟩] } := by
  simp only [tmoHandler, faReset, setLs, lineWrite, emit]

/-- Everything EV_RX can do (R120). -/
theorem rx_cases (b : Byte) (s : State) :
    rx b s = s ∨ (s.stall = none ∧ s.linectl.re = true ∧ s.ls = .fdl ∧ rx b s = rxServo b s) ∨
      (s.stall = none ∧ s.linectl.re = true ∧ s.ls = .hdl ∧ rx b s = rxQuery b s) := by
  unfold rx idle rxEnabled
  cases hs : s.stall with
  | some c => left; simp
  | none =>
    cases hr : s.linectl.re with
    | false => left; simp
    | true => cases hl : s.ls <;> simp

/-- EV_RX of a byte sequence in two parts. -/
theorem rxAll_append (l₁ l₂ : List Byte) (s : State) : rxAll (l₁ ++ l₂) s = rxAll l₂ (rxAll l₁ s) := by
  induction l₁ generalizing s with
  | nil => rfl
  | cons b bs ih => exact ih (rx b s)

/-- What every EV_RX keeps, a sequence of them keeps. -/
theorem rxAll_induction {P : State → Prop} (hstep : ∀ b s, P s → P (rx b s)) (l : List Byte) {s : State} (h : P s) :
    P (rxAll l s) := by
  induction l generalizing s with
  | nil => exact h
  | cons b bs ih => exact ih (hstep b s h)

/-- Everything EV_TXE can do (R149). -/
theorem txe_cases (s : State) :
    txe s = .next s ∨
    (s.stall = none ∧ s.linectl.txeie = true ∧ s.ls = .hdt ∧
      ((8 ≤ s.rb.pos ∧ txe s = .fault .responseIndex) ∨
       ∃ h : s.rb.pos < 8, txe s = .next (txeHandler s.rb.data[s.rb.pos] s))) := by
  unfold txe idle txeEnabled
  cases hs : s.stall with
  | some c => left; simp
  | none =>
    cases hr : s.linectl.txeie with
    | false => left; simp
    | true =>
      cases hl : s.ls <;> simp
      by_cases hp : s.rb.pos < 8
      · right; right; exact ⟨hp, by simp [hp]⟩
      · right; left; exact ⟨by omega, by simp [hp]⟩

/-- Everything EV_TC can do (R150). -/
theorem tc_cases (s : State) :
    tc s = s ∨ (s.stall = none ∧ s.linectl.tcie = true ∧ s.ls = .hdtr ∧ tc s = tcHandler s) := by
  unfold tc idle tcEnabled
  cases hs : s.stall with
  | some c => left; simp
  | none =>
    cases hr : s.linectl.tcie with
    | false => left; simp
    | true => cases hl : s.ls <;> simp

/-- Everything EV_TMO can do (R151). -/
theorem tmo_cases (s : State) :
    tmo s = s ∨ (s.stall = none ∧ s.tmrArmed = true ∧ tmo s = tmoHandler s) := by
  unfold tmo idle tmoEnabled
  cases hs : s.stall with
  | some c => left; simp
  | none => cases hr : s.tmrArmed <;> simp

end Sys2Proof.Machine
end

