-- ==== Sys2Proof/Laws/Frames.lean ====
section
/-! SUPPORT. Whole frames: what parsing a query or a SERVO frame, executing a query and sending a response come to
(30_encoding R72 to R80; 41_link_servo; 42_link_query). -/

namespace Sys2Proof.Machine

/-! ### A parsed query -/

@[simp] theorem queryParsed_ls (c lo : Byte) (s : State) : (queryParsed c lo s).ls = s.ls := rfl
@[simp] theorem queryParsed_fa (c lo : Byte) (s : State) : (queryParsed c lo s).fa = { s.fa with n := 0, prev := lo, ck := checksum [Config.qlen, c] } := rfl
@[simp] theorem queryParsed_tf (c lo : Byte) (s : State) : (queryParsed c lo s).tf = s.tf := rfl
@[simp] theorem queryParsed_cvs (c lo : Byte) (s : State) : (queryParsed c lo s).cvs = s.cvs := rfl
@[simp] theorem queryParsed_qcmd (c lo : Byte) (s : State) : (queryParsed c lo s).qcmd = c := rfl
@[simp] theorem queryParsed_rb (c lo : Byte) (s : State) : (queryParsed c lo s).rb = s.rb := rfl
@[simp] theorem queryParsed_tmrArmed (c lo : Byte) (s : State) : (queryParsed c lo s).tmrArmed = s.tmrArmed := rfl
@[simp] theorem queryParsed_linectl (c lo : Byte) (s : State) : (queryParsed c lo s).linectl = s.linectl := rfl
@[simp] theorem queryParsed_filt (c lo : Byte) (s : State) : (queryParsed c lo s).filt = s.filt := rfl
@[simp] theorem queryParsed_ramp (c lo : Byte) (s : State) : (queryParsed c lo s).ramp = s.ramp := rfl
@[simp] theorem queryParsed_duty (c lo : Byte) (s : State) : (queryParsed c lo s).duty = s.duty := rfl
@[simp] theorem queryParsed_dout (c lo : Byte) (s : State) : (queryParsed c lo s).dout = s.dout := rfl
@[simp] theorem queryParsed_pumpActive (c lo : Byte) (s : State) : (queryParsed c lo s).pumpActive = s.pumpActive := rfl
@[simp] theorem queryParsed_driveSel (c lo : Byte) (s : State) : (queryParsed c lo s).driveSel = s.driveSel := rfl
@[simp] theorem queryParsed_cfg (c lo : Byte) (s : State) : (queryParsed c lo s).cfg = s.cfg := rfl
@[simp] theorem queryParsed_stall (c lo : Byte) (s : State) : (queryParsed c lo s).stall = s.stall := rfl
@[simp] theorem queryParsed_io (c lo : Byte) (s : State) : (queryParsed c lo s).io = s.io := rfl
@[simp] theorem queryParsed_drops (c lo : Byte) (s : State) : (queryParsed c lo s).drops = s.drops := rfl
@[simp] theorem queryParsed_adc (c lo : Byte) (s : State) : (queryParsed c lo s).adc = s.adc := rfl
@[simp] theorem queryParsed_draws (c lo : Byte) (s : State) : (queryParsed c lo s).draws = s.draws := rfl
@[simp] theorem queryParsed_inbox (c lo : Byte) (s : State) : (queryParsed c lo s).inbox = s.inbox := rfl

/-- Four received bytes of a query run the parser to its end: the query is executed if its trailer is right and dropped if not
(R140 to R142). -/
theorem rxAll_query (op i : BitVec 4) (ck : Word16) (s : State) (h : ListensForQuery s) :
    rxAll (queryBytes op i ck) s =
      if ck = queryChecksum op i then queryExec (cmdByte op i) ck (queryParsed (cmdByte op i) (lowByte ck) s)
      else raiseDrop .cksum (queryParsed (cmdByte op i) (lowByte ck) s) := by
  obtain ⟨h1, h2, h3, h4⟩ := h
  have hre : (lineRow .hdl).re = true := rfl
  simp only [queryBytes, bytes16, rxAll, rx, idle, rxEnabled, h1, h2, h3, hre, rxQuery, h4, rxLength, rxCommand,
    rxTrailerLow, rxTrailerHigh, Option.isNone_none, Bool.and_true, if_true, pair_low_high, queryParsed, queryChecksum,
    checksum, ckSub]

/-- A sensor index nibble that is not 0 is a positive number. -/
theorem index_ne_zero {i : BitVec 4} (h : i ≠ 0) : i.toNat ≠ 0 := by
  intro h0
  exact h (BitVec.eq_of_toNat_eq (by simpa using h0))

/-! ### The acquisition of a Value query -/

/-- An acquisition changes the trace, the script and the draw counter only (R102). -/
theorem adcRead_frame (chan : Nat) (s : State) : ∃ adc draws,
    (adcRead chan s).2 = { s with io := s.io ++ [.adc chan], adc := adc, draws := draws } := by
  obtain ⟨a, d, h, -⟩ := adcRead_cases chan s
  exact ⟨a, d, h⟩

/-- An acquisition does not look at what the parser holds. -/
theorem adcRead_queryParsed (chan : Nat) (c lo : Byte) (s : State) :
    adcRead chan (queryParsed c lo s) = ((adcRead chan s).1, queryParsed c lo (adcRead chan s).2) := by
  unfold adcRead nextReply queryParsed emit
  cases s.adc with
  | cons r rest => cases r <;> rfl
  | nil => cases Config.adcDraw s.draws <;> rfl

/-- `SensorValue(k)` when the acquisition returns a value (R101). -/
theorem sensorValue_of_value {k : Fin 3} {s s1 : State} {raw : Nat} (hc : s.cfg.reg[k].chan ≠ 0)
    (h : adcRead s.cfg.reg[k].chan s = (some raw, s1)) :
    sensorValue k s = (.value (convert s.cfg.conv[k] (filterReport (filterNext s.filt[k] raw))),
      { s1 with filt := s.filt.set k (filterNext s.filt[k] raw) }) := by
  rw [sensorValue, if_neg hc, h]
  obtain ⟨a, d, hf⟩ := adcRead_frame s.cfg.reg[k].chan s
  rw [h] at hf
  simp only at hf
  subst hf
  rfl

/-- `SensorValue(k)` when the acquisition never returns (R107). -/
theorem sensorValue_of_never {k : Fin 3} {s s1 : State} (hc : s.cfg.reg[k].chan ≠ 0)
    (h : adcRead s.cfg.reg[k].chan s = (none, s1)) :
    sensorValue k s = (.stalled, { s1 with stall := some s.cfg.reg[k].chan }) := by
  rw [sensorValue, if_neg hc, h]; rfl

/-! ### Answers -/

/-- `StartTx()` after a response has been built, from the listening state's line control (R148). -/
theorem startTx_fill_answered (bs : List Byte) {s : State} (h : s.linectl = lineRow .hdl) :
    startTx (fillResponse bs s) = answered bs s := by
  rw [startTx_fill_eq, answered, h]
  rfl

/-- The bytes of a built response are a self-checked frame (R80). -/
theorem responseBytes_eq (c : Byte) (val : List Byte) :
    responseBytes c val = selfChecked (BitVec.ofNat 8 (val.length + 4) :: c :: val) := rfl

/-- Two bytes of the 32-bit value of a 2-byte response (R146, D13). -/
theorem bytes16_setWidth (v : Word32) : bytes16 (v.setWidth 16) = [v.extractLsb' 0 8, v.extractLsb' 8 8] := by
  simp only [bytes16, lowByte, highByte, List.cons.injEq, and_true]
  constructor <;> ext j hj <;> simp <;> omega

/-- A verified query that is not answerable is dropped with nothing else changed (R143, R212). -/
theorem queryExec_of_not_answerable {c : Byte} {w : Word16} {s : State} (h : ¬ Answerable s.cfg c) :
    ∃ e, queryExec c w s = raiseDrop e s := by
  by_cases h0 : (cmdIndex c).toNat = 0
  · exact ⟨.idx0, by simp [queryExec, h0]⟩
  have hi : cmdIndex c ≠ 0 := fun hc => h0 (by rw [hc]; rfl)
  by_cases ht : sensorType s.cfg ((cmdIndex c).toNat - 1) = 0
  · exact ⟨.absent, by simp [queryExec, h0, ht]⟩
  have hn : ∀ q : Prop, (q → Answerable s.cfg c) → ¬ q := fun q hq hp => h (hq hp)
  have hp : cmdOp c ≠ Config.cmdProbe := hn _ fun hp => ⟨hi, ht, .inl hp⟩
  have hy : cmdOp c ≠ Config.cmdType := hn _ fun hp => ⟨hi, ht, .inr (.inl hp)⟩
  rw [queryExec, if_neg h0]
  simp only [if_neg ht, if_neg hp, if_neg hy]
  by_cases hv : cmdOp c = Config.cmdValue
  · exact ⟨.width, by rw [if_pos hv, valueQuery, if_neg fun hw => h ⟨hi, ht, .inr (.inr ⟨hv, hw⟩)⟩]⟩
  · exact ⟨.cmd, by rw [if_neg hv]⟩

/-! ### The channel bytes of a SERVO frame -/

/-- The parser's registers after the channel pairs `ws` have been taken in from position `2 * k` on (R123, R124). -/
def pairsParsed (ws : List Word16) (k : Nat) (s : State) : State :=
  match ws with
  | [] => s
  | w :: rest =>
    pairsParsed rest (k + 1) { s with
      tf := s.tf.setIfInBounds k (channelValue w)
      fa := { s.fa with prev := highByte w, ck := ckSub s.fa.ck [lowByte w, highByte w], n := 2 * k + 2 } }

/-- The same in closed form: `TF[k]` onwards, and the running checksum over all the bytes (R124). -/
theorem pairsParsed_eq (ws : List Word16) (k : Nat) (s : State) (hn : s.fa.n = 2 * k) :
    pairsParsed ws k s = { s with
      tf := Vector.ofFn fun j =>
        if k ≤ j.val ∧ j.val < k + ws.length then channelValue (ws.getD (j.val - k) 0) else s.tf[j]
      fa := ⟨s.fa.sync, 2 * (k + ws.length), (pairBytes ws).getLastD s.fa.prev, ckSub s.fa.ck (pairBytes ws)⟩ } := by
  induction ws generalizing k s with
  | nil =>
    have h : (Vector.ofFn fun j : Fin 14 =>
        if k ≤ j.val ∧ j.val < k + 0 then channelValue (([] : List Word16).getD (j.val - k) 0) else s.tf[j]) = s.tf := by
      apply Vector.ext
      intro j hj
      have : ¬ (k ≤ j ∧ j < k) := by omega
      simp [this]
    simp only [List.length_nil, h]
    simp only [pairsParsed, pairBytes, List.getLastD_nil, ckSub, Nat.add_zero, ← hn]
  | cons w ws ih =>
    rw [pairsParsed, ih (k + 1) _ rfl]
    have h1 : 2 * (k + 1 + ws.length) = 2 * (k + (w :: ws).length) := by simp; omega
    have h2 : (pairBytes ws).getLastD (highByte w) = (pairBytes (w :: ws)).getLastD s.fa.prev := by
      simp only [pairBytes, List.getLastD_cons]
    have h3 : (Vector.ofFn fun j : Fin 14 =>
        if k + 1 ≤ j.val ∧ j.val < k + 1 + ws.length then channelValue (ws.getD (j.val - (k + 1)) 0)
        else (s.tf.setIfInBounds k (channelValue w))[j]) =
        Vector.ofFn fun j : Fin 14 =>
        if k ≤ j.val ∧ j.val < k + (w :: ws).length then channelValue ((w :: ws).getD (j.val - k) 0) else s.tf[j] := by
      refine congrArg Vector.ofFn (funext fun j => ?_)
      simp only [List.length_cons]
      by_cases h : k + 1 ≤ j.val ∧ j.val < k + 1 + ws.length
      · have h4 : k ≤ j.val ∧ j.val < k + (ws.length + 1) := by omega
        have h5 : j.val - k = (j.val - (k + 1)) + 1 := by omega
        rw [if_pos h, if_pos h4, h5, List.getD_cons_succ]
      · by_cases h4 : j.val = k
        · subst h4; simp
        · have h5 : ¬ (k ≤ j.val ∧ j.val < k + (ws.length + 1)) := by omega
          rw [if_neg h, if_neg h5]
          exact Vector.getElem_setIfInBounds_ne j.isLt (by omega)
    simp only [h3, h2, h1]
    simp only [pairBytes, ckSub]

/-- A byte in the middle of an attempt that does not complete a header is handed to the pair stage (R121). -/
theorem rx_in_attempt {b : Byte} {s : State} (h : ListensForServo s) (hs : s.fa.sync = true)
    (hh : ¬ (s.fa.prev = Config.hdr0 ∧ b = Config.hdr1)) :
    rx b s =
      if s.fa.n % 2 = 0 then { s with fa := { s.fa with prev := b, n := s.fa.n + 1 } }
      else if s.fa.n / 2 < 14 then channelPair (s.fa.n / 2) s.fa.prev b { s with fa := { s.fa with prev := b } }
      else checksumPair (pair s.fa.prev b) { s with fa := { s.fa with prev := b } } := by
  obtain ⟨h1, h2, h3⟩ := h
  have hre : (lineRow .fdl).re = true := rfl
  simp only [rx, idle, rxEnabled, h1, h2, h3, hre, Option.isNone_none, Bool.and_true, if_true, rxServo, if_neg hh, hs,
    Bool.true_eq_false, if_false, Config.nch]

/-- The channel bytes of a SERVO frame, with no header among them, are taken in pair by pair (R123, R124). -/
theorem rxAll_pairs (ws : List Word16) (k : Nat) (s : State) (h : ListensForServo s) (hs : s.fa.sync = true)
    (hn : s.fa.n = 2 * k) (hk : k + ws.length ≤ 14) (hh : noHeader (s.fa.prev :: pairBytes ws) = true) :
    rxAll (pairBytes ws) s = pairsParsed ws k s := by
  induction ws generalizing k s with
  | nil => rfl
  | cons w ws ih =>
    simp only [List.length_cons] at hk
    have hh1 : ¬ (s.fa.prev = Config.hdr0 ∧ lowByte w = Config.hdr1) := by
      intro hc; simp [pairBytes, noHeader, hc] at hh
    have hh2 : ¬ (lowByte w = Config.hdr0 ∧ highByte w = Config.hdr1) := by
      intro hc; simp [pairBytes, noHeader, hc] at hh
    have hh3 : noHeader (highByte w :: pairBytes ws) = true := by
      simp only [pairBytes, noHeader, Bool.and_eq_true] at hh; exact hh.2.2
    have e1 : (2 * k) % 2 = 0 := by omega
    have e2 : (2 * k + 1) % 2 ≠ 0 := by omega
    have e3 : (2 * k + 1) / 2 = k := by omega
    have e4 : k < 14 := by omega
    simp only [pairBytes, rxAll, rx_in_attempt h hs hh1, hn, e1, if_true]
    rw [rx_in_attempt (s := { s with fa := { s.fa with prev := lowByte w, n := 2 * k + 1 } }) h hs hh2]
    simp only [e2, e3, if_false, e4, if_true, channelPair, pair_low_high, pairsParsed]
    exact ih (k + 1) _ h hs (by simp; omega) (by omega) hh3

/-! ### Instructions as sequences of events (R85) -/

/-- What every event but EV_RST keeps, every instruction but EV_RST keeps. -/
theorem exec_induction {P : State → Prop} (hrx : ∀ b s, P s → P (rx b s))
    (htxe : ∀ s t, P s → txe s = .next t → P t) (htc : ∀ s, P s → P (tc s)) (htmo : ∀ s, P s → P (tmo s))
    {i : Instr} {s t : State} (hi : i ≠ .evRst) (h : P s) (he : exec i s = .next t) : P t := by
  have hdrain : ∀ n s t, P s → drain n s = .next t → P t := by
    intro n
    induction n with
    | zero => intro s t h hd; cases hd; exact htc s h
    | succ n ih =>
      intro s t h hd
      simp only [drain] at hd
      cases hx : txe s with
      | next u => rw [hx] at hd; exact ih u t (htxe s u h hx) hd
      | fault => rw [hx] at hd; cases hd
      | refused => rw [hx] at hd; cases hd
  have htransmit : ∀ bytes, transmit bytes s = .next t → P t := by
    intro bytes hb
    unfold transmit at hb
    split at hb
    · exact hdrain _ _ _ h hb
    · cases hb; exact h
  cases i with
  | servo pairs ck => cases he; exact rxAll_induction hrx _ h
  | qProbe k ck => cases he; exact rxAll_induction hrx _ h
  | qType k ck => cases he; exact rxAll_induction hrx _ h
  | qValue k ck => cases he; exact rxAll_induction hrx _ h
  | rProbe k ck => exact htransmit _ he
  | rType k t ck => exact htransmit _ he
  | rValue2 k v ck => exact htransmit _ he
  | rValue4 k v ck => exact htransmit _ he
  | evRst => exact absurd rfl hi
  | evRx b => cases he; exact hrx _ _ h
  | evTxe => exact htxe _ _ h he
  | evTc => cases he; exact htc _ h
  | evTmo => cases he; exact htmo _ h

end Sys2Proof.Machine
end

