-- ==== Sys2Proof/Laws/PerInstr.lean ====
section
/-! SUPPORT. Laws stated once for each instruction of the table. -/

namespace Sys2Proof.Laws

open Sys2Proof.Machine

/-- The size in bytes that 30_encoding R71 gives a row's frame; an event has no bytes (R84). -/
def frameSize (i : Instr) : Option Nat :=
  match i with
  | .servo _ _ => some 32
  | .qProbe _ _ => some 4
  | .qType _ _ => some 4
  | .qValue _ _ => some 4
  | .rProbe _ _ => some 4
  | .rType _ _ _ => some 6
  | .rValue2 _ _ _ => some 6
  | .rValue4 _ _ _ => some 8
  | .evRst => none
  | .evRx _ => none
  | .evTxe => none
  | .evTc => none
  | .evTmo => none

/-- The size in bytes of a coded input. -/
def codeSize (c : Code) : Option Nat :=
  match c with
  | .event _ => none
  | .inbound bytes => some bytes.length
  | .outbound bytes => some bytes.length

/-- A well-formed instruction is encoded in exactly the bytes of its row. -/
def EncodeSize.Statement (i : Instr) : Prop := i.wellFormed = true → codeSize (encode i) = frameSize i

theorem EncodeSize.servo (pairs : List Word16) (ck : Word16) : EncodeSize.Statement (.servo pairs ck) := by
  intro h
  have hl : pairs.length = 14 := by simpa [Instr.wellFormed] using h
  simp [codeSize, encode, servoBytes, bytes16, frameSize, hl]

theorem EncodeSize.qProbe (i : BitVec 4) (ck : Word16) : EncodeSize.Statement (.qProbe i ck) := fun _ => rfl

theorem EncodeSize.qType (i : BitVec 4) (ck : Word16) : EncodeSize.Statement (.qType i ck) := fun _ => rfl

theorem EncodeSize.qValue (i : BitVec 4) (ck : Word16) : EncodeSize.Statement (.qValue i ck) := fun _ => rfl

theorem EncodeSize.rProbe (i : BitVec 4) (ck : Word16) : EncodeSize.Statement (.rProbe i ck) := fun _ => rfl

theorem EncodeSize.rType (i : BitVec 4) (t ck : Word16) : EncodeSize.Statement (.rType i t ck) := fun _ => rfl

theorem EncodeSize.rValue2 (i : BitVec 4) (v ck : Word16) : EncodeSize.Statement (.rValue2 i v ck) := fun _ => rfl

theorem EncodeSize.rValue4 (i : BitVec 4) (v : Word32) (ck : Word16) : EncodeSize.Statement (.rValue4 i v ck) := fun _ => rfl

theorem EncodeSize.evRst : EncodeSize.Statement .evRst := fun _ => rfl

theorem EncodeSize.evRx (b : Byte) : EncodeSize.Statement (.evRx b) := fun _ => rfl

theorem EncodeSize.evTxe : EncodeSize.Statement .evTxe := fun _ => rfl

theorem EncodeSize.evTc : EncodeSize.Statement .evTc := fun _ => rfl

theorem EncodeSize.evTmo : EncodeSize.Statement .evTmo := fun _ => rfl

end Sys2Proof.Laws
end

