-- ==== Sys2Proof/Tests/Slice0.lean ====
section
/-! SUPPORT. Tests: well-formedness, decoding of words written out from the spec's encodings, one step of each instruction
against the vectors of spec/95_test_vectors.md (V1 to V38), and for every statement with hypotheses a concrete case that
meets them all. Every expected value is the spec's. -/

-- One theorem at a time: a hundred short proofs elaborated at once ask for more threads than the check's memory holds.
set_option Elab.async false

namespace Sys2Proof.Tests

open Sys2Proof.Machine

/-! ### States to test on -/

/-- Waiting for a query, as V1 leaves the link. -/
def listening : State := { State.reset with ls := .hdl, tmrArmed := true, linectl := lineRow .hdl }

/-- Waiting for a query, with acquisition answers to come. -/
def scripted (replies : List AdcReply) : State := { listening with adc := replies }

/-- A response is in the buffer and `pos` bytes of it are sent. -/
def holding (bytes : List Byte) (pos : Nat) : State :=
  { listening with
    ls := .hdt
    linectl := lineRow .hdt
    rb := ⟨Vector.ofFn fun j => bytes.getD j.val 0, bytes.length, pos⟩ }

/-- In the middle of a SERVO frame. -/
def receiving (n : Nat) (prev : Byte) (ck : Word16) : State := { State.reset with fa := ⟨true, n, prev, ck⟩ }

/-- Registry entry 1 declares width 3 (V35). -/
def width3 : State := { listening with cfg := { rc with reg := #v[⟨1, 0x0301⟩, ⟨2, 0x0403⟩, ⟨0, 0⟩] } }

/-- All bytes of the last response are sent (R149). -/
def lastSent : State :=
  { holding [0x04, 0x81, 0x7A, 0xFF] 4 with ls := .hdtr, linectl := lineRow .hdtr }

/-- The handler waits for an acquisition that never returns. -/
def stalled : State := { listening with stall := some 2 }

/-- The schedule holds one EV_RX(7A). -/
def oneByteDue : State := { State.reset with inbox := [.one (.event 0x17A)] }

/-- One instruction, if it answers a next state. -/
def result (i : Instr) (s : State) : Option State :=
  match exec i s with
  | .next t => some t
  | _ => none

/-- V1's channel pairs. -/
def neutral : List Word16 := List.replicate 14 0x05DC

/-! ### Well-formedness -/

theorem test_wellFormed_servo_13_pairs : (Instr.servo (List.replicate 13 0x05DC) 0xF351).wellFormed = false := by decide
theorem test_wellFormed_servo_15_pairs : (Instr.servo (List.replicate 15 0x05DC) 0xF351).wellFormed = false := by decide
theorem test_wellFormed_servo : (Instr.servo neutral 0xF351).wellFormed = true := by decide

/-! ### Decoding: words written out from R72, R75, R77 to R79 and R84 -/

/-- V1's 32 bytes, by 16-bit words from the last to the first. -/
theorem test_decode_servo :
    decodeTableWord 256 0x51F3DC05DC05DC05DC05DC05DC05DC05DC05DC05DC05DC05DC05DC05DC052040 =
      some (.servo neutral 0xF351) := by decide +kernel

/-- V12: the two bytes of a pair and the pairs themselves stay apart. -/
theorem test_decode_servo_order :
    decodeTableWord 256 0xADF4DC05DC05DC05DC05DC05DC05DC05DC05DC05DC05DC05DC05400600202040 =
      some (.servo (0x2000 :: 0x0640 :: List.replicate 12 0x05DC) 0xF4AD) := by decide +kernel

theorem test_decode_qProbe : decodeTableWord 32 0x04817AFF = some (.qProbe 1 0xFF7A) := by decide +kernel
theorem test_decode_qType : decodeTableWord 32 0x04926900 = some (.qType 2 0x0069) := by decide +kernel
theorem test_decode_qValue : decodeTableWord 32 0x04A259FF = some (.qValue 2 0xFF59) := by decide +kernel
theorem test_decode_rProbe : decode (.outbound [0x04, 0x81, 0x7A, 0xFF]) = .ok (.rProbe 1 0xFF7A) := by rfl
theorem test_decode_rType : decodeTableWord 48 0x0691010265FF = some (.rType 1 0x0201 0xFF65) := by decide +kernel
theorem test_decode_rValue2 : decodeTableWord 48 0x06A15CFEFEFD = some (.rValue2 1 0xFE5C 0xFDFE) := by decide +kernel
theorem test_decode_rValue4 :
    decodeTableWord 64 0x08A2E646000029FE = some (.rValue4 2 0x000046E6 0xFE29) := by decide +kernel
theorem test_decode_evRst : decodeTableWord 11 0b00000000000 = some .evRst := by decide +kernel
theorem test_decode_evRx : decodeTableWord 11 0b00110000001 = some (.evRx 0x81) := by decide +kernel
theorem test_decode_evTxe : decodeTableWord 11 0b01000000000 = some .evTxe := by decide +kernel
theorem test_decode_evTc : decodeTableWord 11 0b01100000000 = some .evTc := by decide +kernel
theorem test_decode_evTmo : decodeTableWord 11 0b10000000000 = some .evTmo := by decide +kernel
theorem test_decode_unused_event : decode (.event 0b10100000000) = .error .unusedEventCode := by rfl
theorem test_decode_stray_operand : decode (.event 0b01000000001) = .error .strayOperand := by rfl
theorem test_decode_unknown_command : decode (.inbound [0x04, 0xB1, 0x4A, 0xFF]) = .error .unknownInbound := by rfl
theorem test_decode_short_servo : decode (.inbound [0x20, 0x40, 0x00]) = .error .unknownInbound := by rfl
theorem test_decode_unknown_outbound : decode (.outbound [0x06, 0x81, 0, 0, 0, 0]) = .error .unknownOutbound := by rfl

/-! ### One step of each instruction (95_test_vectors) -/

/-- V15 and V70: the channels, the duties and the pins of frame FRA. -/
theorem test_servo_v15_v70 :
    (result (.servo [0x06A4, 0x05DC, 0x05DC, 0x05FA, 0x05DC, 0x05DC, 0x03E8, 0x07D0, 0x05DC, 0x05DC, 0x05DC, 0x05DC, 0x05DC,
      0x05DC] 0xF36A) State.reset).map (fun t => (t.ramp.toList, t.duty.toList, t.dout.toList, t.ls)) =
    some ([20, 10, 0, 0], [1600, 1500, 1500, 1580, 1510, 1500, 1500], [true, true, true], .hdl) := by decide +kernel

/-- V2: a wrong trailer leaves the channels and the link as they were. -/
theorem test_servo_v2 :
    (result (.servo neutral 0xF350) State.reset).map (fun t => (t.ls, t.fa.prev, t.cvs[0], t.drops)) =
    some (.fdl, 0xF3, 0, [.cksum]) := by decide +kernel

/-- V20. -/
theorem test_qProbe_v20 :
    (result (.qProbe 1 0xFF7A) listening).map (fun t => (t.rb.data.toList.take 4, t.rb.len, t.ls, t.wireOut)) =
    some ([0x04, 0x81, 0x7A, 0xFF], 4, .hdt, [.idle]) := by decide +kernel

/-- V32. -/
theorem test_qProbe_v32 :
    (result (.qProbe 1 0xFF7B) listening).map (fun t => (t.ls, t.fa.n, t.drops)) = some (.hdl, 0, [.cksum]) := by
  decide +kernel

/-- V22. -/
theorem test_qType_v22 :
    (result (.qType 1 0xFF6A) listening).map (fun t => (t.rb.data.toList.take 6, t.rb.len)) =
    some ([0x06, 0x91, 0x01, 0x02, 0x65, 0xFF], 6) := by decide +kernel

/-- V30, index 15. -/
theorem test_qType_v30 :
    (result (.qType 15 0xFF5C) listening).map (fun t => (t.ls, t.drops)) = some (.hdl, [.absent]) := by decide +kernel

/-- V25: two value bytes, a negative value. -/
theorem test_qValue_v25 :
    (result (.qValue 1 0xFF5A) (scripted [.value 100])).map
      (fun t => (t.rb.data.toList.take 6, t.filt[0].acc, t.adcRequests)) =
    some ([0x06, 0xA1, 0x5C, 0xFE, 0xFE, 0xFD], 12800, [1]) := by decide +kernel

/-- V24: four value bytes. -/
theorem test_qValue_v24 :
    (result (.qValue 2 0xFF59) (scripted [.value 2048])).map (fun t => (t.rb.data.toList, t.filt[1].acc, t.adcRequests)) =
    some ([0x08, 0xA2, 0xE6, 0x46, 0x00, 0x00, 0x29, 0xFE], 262144, [2]) := by decide +kernel

/-- V20, drained. -/
theorem test_rProbe_v20 :
    (result (.rProbe 1 0xFF7A) (holding [0x04, 0x81, 0x7A, 0xFF] 0)).map (fun t => (t.wireOut, t.ls, t.rb.pos)) =
    some ([.byte 0x04, .byte 0x81, .byte 0x7A, .byte 0xFF], .hdl, 4) := by decide +kernel

/-- V22, drained. -/
theorem test_rType_v22 :
    (result (.rType 1 0x0201 0xFF65) (holding [0x06, 0x91, 0x01, 0x02, 0x65, 0xFF] 0)).map (fun t => (t.wireOut.length, t.ls)) =
    some (6, .hdl) := by decide +kernel

/-- V25, drained. -/
theorem test_rValue2_v25 :
    (result (.rValue2 1 0xFE5C 0xFDFE) (holding [0x06, 0xA1, 0x5C, 0xFE, 0xFE, 0xFD] 0)).map
      (fun t => (t.wireOut.getLast?, t.ls)) = some (some (.byte 0xFD), .hdl) := by decide +kernel

/-- V24, drained. -/
theorem test_rValue4_v24 :
    (result (.rValue4 2 0x000046E6 0xFE29) (holding [0x08, 0xA2, 0xE6, 0x46, 0x00, 0x00, 0x29, 0xFE] 0)).map
      (fun t => (t.wireOut.length, t.rb.pos)) = some (8, 8) := by decide +kernel

/-- R39, R251: reset from a stalled handler. -/
theorem test_evRst_stalled :
    (result .evRst stalled).map (fun t => (t.ls, t.tmrArmed, t.linectl, t.stall)) =
    some (.fdl, false, ⟨false, true, false, false, false⟩, none) := by rfl

/-- V10: the header again, two bytes into the second pair. -/
theorem test_evRx_v10 :
    (result (.evRx 0x40) (receiving 3 0x20 0xFEBE)).map (fun t => (t.fa, t.drops)) =
    some (⟨true, 0, 0x40, 0xFF9F⟩, [.resync]) := by decide +kernel

/-- V11: the fourth byte takes the pair off the checksum. -/
theorem test_evRx_v11 :
    (result (.evRx 0x05) (receiving 1 0xDC 0xFF9F)).map (fun t => (t.fa, t.tf[0])) =
    some (⟨true, 2, 0x05, 0xFEBE⟩, 1500) := by decide +kernel

/-- V36: the second byte of the response. -/
theorem test_evTxe_v36 :
    (result .evTxe (holding [0x04, 0x82, 0x79, 0xFF] 1)).map (fun t => (t.wireOut, t.ls, t.rb.pos)) =
    some ([.byte 0x82], .hdt, 2) := by decide +kernel

/-- P1: the last byte of the response. -/
theorem test_evTxe_last :
    (result .evTxe (holding [0x04, 0x81, 0x7A, 0xFF] 3)).map (fun t => (t.wireOut, t.ls, t.linectl)) =
    some ([.byte 0xFF], .hdtr, ⟨true, false, true, false, true⟩) := by decide +kernel

/-- P1: after `TC`. -/
theorem test_evTc :
    (result .evTc lastSent).map (fun t => (t.ls, t.linectl, t.tmrArmed)) =
    some (.hdl, ⟨true, true, false, false, false⟩, true) := by decide +kernel

/-- V36: the timeout discards the rest of the response. -/
theorem test_evTmo_v36 :
    (result .evTmo (holding [0x04, 0x82, 0x79, 0xFF] 2)).map (fun t => (t.ls, t.rb.len, t.rb.pos, t.linectl)) =
    some (.fdl, 0, 0, ⟨false, true, false, false, false⟩) := by decide +kernel

/-- V31: a query with an unknown command is no row of the table; its bytes are received all the same, and the query is dropped. -/
theorem test_step_undecoded_query_v31 :
    (match step { listening with inbox := [.one (.inbound [0x04, 0xB1, 0x4A, 0xFF])] } with
      | .next t => some (t.ls, t.fa.n, t.qcmd, t.drops, t.inbox)
      | _ => none) = some (.hdl, 0, 0xB1, [.cmd], []) := by decide +kernel

/-! ### The hypotheses of the statements can be met -/

theorem witness_DecodeOfEncode : (Instr.servo neutral 0xF351).wellFormed = true := by decide

theorem witness_EncodeOfDecode : decode (.inbound [0x04, 0x81, 0x7A, 0xFF]) = .ok (.qProbe 1 0xFF7A) := by rfl

theorem witness_StepRunsDecoded :
    cfgOk oneByteDue.cfg = true ∧ fetch oneByteDue.inbox = some (.event 0x17A, []) ∧
      decode (.event 0x17A) = .ok (.evRx 0x7A) := ⟨by decide +kernel, rfl, rfl⟩

theorem witness_PlacedWordRuns :
    cfgOk State.reset.cfg = true ∧ decodeTableWord 16 0x17A = some (.evRx 0x7A) := ⟨by decide +kernel, rfl⟩

theorem witness_StepWithoutInstruction_idle : cfgOk State.reset.cfg = true ∧ fetch State.reset.inbox = none :=
  ⟨by decide +kernel, rfl⟩

/-- Inbound bytes that are a frame of the table (V20) and bytes that are none (V31). -/
theorem witness_StepWithoutInstruction_inbound :
    cfgOk listening.cfg = true ∧
      fetch [.one (.inbound [0x04, 0x82, 0x79, 0xFF])] = some (.inbound [0x04, 0x82, 0x79, 0xFF], []) ∧
      fetch [.one (.inbound [0x04, 0xB1, 0x4A, 0xFF])] = some (.inbound [0x04, 0xB1, 0x4A, 0xFF], []) :=
  ⟨by decide +kernel, rfl, rfl⟩

theorem witness_StepWithoutInstruction_event :
    cfgOk State.reset.cfg = true ∧ fetch [.one (.event 0x500)] = some (.event 0x500, []) ∧
      decode (.event 0x500) = .error .unusedEventCode := ⟨by decide +kernel, rfl, rfl⟩

theorem witness_StepWithoutInstruction_outbound :
    cfgOk State.reset.cfg = true ∧ fetch [.one (.outbound [0x06])] = some (.outbound [0x06], []) ∧
      decode (.outbound [0x06]) = .error .unknownOutbound := ⟨by decide +kernel, rfl, rfl⟩

theorem witness_StepWithoutInstruction_badConfiguration : cfgOk { rc with swHi := 1299 } = false := by decide +kernel

theorem witness_ResetMeetsInvariants : cfgOk width3.cfg = true := by decide +kernel

/-- The state of `listening` meets the invariants. -/
theorem witness_inv : Inv listening := by
  constructor <;> decide +kernel

/-- An idle step from it answers a next state. -/
theorem witness_StepKeepsInvariants : Inv listening ∧ step listening = .next listening := ⟨witness_inv, rfl⟩

theorem witness_RunsNeverStop : Inv listening ∧ Reaches listening listening := ⟨witness_inv, .step .start rfl⟩

theorem witness_ConfigurationNeverWritten : ∃ t, exec (.evRx 0x07) listening = .next t := ⟨_, rfl⟩

theorem witness_ActuatorsMoveOnlyWithKick :
    Instr.qProbe 1 0xFF7A ≠ .evRst ∧ ∃ t, exec (.qProbe 1 0xFF7A) listening = .next t ∧ t.wdgOut = listening.wdgOut :=
  ⟨by decide, _, rfl, by decide +kernel⟩

/-- V1's last byte: the case that kicks. -/
theorem witness_KickOnlyOnAcceptedFrame :
    ∃ t, exec (.evRx 0xF3) (receiving 29 0x51 0xF351) = .next t ∧ t.wdgOut = [.kick] := ⟨_, rfl, by decide +kernel⟩

theorem witness_KickOnlyOnAcceptedFrame_tmo : ∃ t, exec .evTmo listening = .next t := ⟨_, rfl⟩

theorem witness_StallBlocksAllButReset : stalled.stall = some 2 ∧ Instr.evTmo ≠ .evRst := by decide

theorem witness_LinkStateTransitions_rst : ∃ t, exec .evRst listening = .next t := ⟨_, rfl⟩

/-- The accepted frame and the answered query both change the link state. -/
theorem witness_LinkStateTransitions_rx :
    (∃ t, exec (.evRx 0xF3) (receiving 29 0x51 0xF351) = .next t ∧ t.ls = .hdl) ∧
    ∃ t, exec (.evRx 0xFF) { listening with qcmd := 0x81, fa := ⟨false, 3, 0x7A, 0xFF7A⟩ } = .next t ∧ t.ls = .hdt :=
  ⟨⟨_, rfl, by decide +kernel⟩, _, rfl, by decide +kernel⟩

theorem witness_LinkStateTransitions_txe :
    ∃ t, exec .evTxe (holding [0x04, 0x81, 0x7A, 0xFF] 3) = .next t ∧ t.ls = .hdtr := ⟨_, rfl, by decide +kernel⟩

theorem witness_LinkStateTransitions_tc : ∃ t, exec .evTc lastSent = .next t ∧ t.ls = .hdl := ⟨_, rfl, by decide +kernel⟩

theorem witness_LinkStateTransitions_tmo : ∃ t, exec .evTmo lastSent = .next t ∧ t.ls = .fdl := ⟨_, rfl, by decide +kernel⟩

theorem witness_DisabledEventsChangeNothing :
    (lastSent.linectl.re = false ∧ lastSent.ls = .hdtr) ∧ (listening.linectl.txeie = false ∧ listening.ls ≠ .hdt) ∧
      (listening.linectl.tcie = false ∧ listening.ls ≠ .hdtr) ∧ State.reset.tmrArmed = false := by decide +kernel

/-- V33, V10, V2: a length drop, a resynchronisation, a checksum drop. -/
theorem witness_DropChangesOnlyParseState :
    (∃ t, exec (.evRx 0x07) listening = .next t ∧ t.drops = listening.drops ++ [.len]) ∧
    (∃ t, exec (.evRx 0x40) (receiving 3 0x20 0xFEBE) = .next t ∧ t.drops = [] ++ [.resync]) ∧
    ∃ t, exec (.evRx 0xF3) (receiving 29 0x50 0xF351) = .next t ∧ t.drops = [] ++ [.cksum] :=
  ⟨⟨_, rfl, by decide +kernel⟩, ⟨_, rfl, by decide +kernel⟩, _, rfl, by decide +kernel⟩

theorem witness_DropLogNeverRead : ∃ t, exec (.servo neutral 0xF350) State.reset = .next t := ⟨_, rfl⟩

theorem witness_WireSymbolsByEvent :
    (∃ t, exec (.evRx 0x04) listening = .next t) ∧ (∃ t, exec .evTxe (holding [0x04, 0x81, 0x7A, 0xFF] 0) = .next t) ∧
      ∃ t, exec .evTc lastSent = .next t := ⟨⟨_, rfl⟩, ⟨_, rfl⟩, _, rfl⟩

/-- The last byte of a Value query of sensor 1. -/
theorem witness_FilterAdvancesOnlyWhenAsked :
    (∃ t, exec (.evRx 0xFF) { scripted [.value 100] with qcmd := 0xA1, fa := ⟨false, 3, 0x5A, 0xFF5A⟩ } = .next t ∧
      t.adcRequests = [1]) ∧ ∃ t, exec .evTmo listening = .next t := ⟨⟨_, rfl, by decide +kernel⟩, _, rfl⟩

theorem witness_listensForServo : ListensForServo State.reset ∧ State.reset.fa.sync = false := ⟨⟨rfl, rfl, rfl⟩, rfl⟩

theorem witness_HuntingByteIgnored :
    ListensForServo State.reset ∧ State.reset.fa.sync = false ∧ ¬ (State.reset.fa.prev = 0x20 ∧ (0x33 : Byte) = 0x40) :=
  ⟨⟨rfl, rfl, rfl⟩, rfl, by decide⟩

/-- Inside an attempt and outside one. -/
theorem witness_HeaderStartsAttempt :
    (ListensForServo (receiving 3 0x20 0xFEBE) ∧ (receiving 3 0x20 0xFEBE).fa.prev = 0x20) ∧
    ListensForServo { State.reset with fa := ⟨false, 0, 0x20, 0⟩ } := ⟨⟨⟨rfl, rfl, rfl⟩, rfl⟩, rfl, rfl, rfl⟩

/-- At the first and at the last pair. -/
theorem witness_FirstPairByteRemembered :
    (ListensForServo (receiving 0 0x40 0xFF9F) ∧ (receiving 0 0x40 0xFF9F).fa.n % 2 = 0) ∧
    ListensForServo (receiving 28 0x05 0xF351) ∧ (receiving 28 0x05 0xF351).fa.n % 2 = 0 ∧
      ¬ ((receiving 28 0x05 0xF351).fa.prev = 0x20 ∧ (0x51 : Byte) = 0x40) :=
  ⟨⟨⟨rfl, rfl, rfl⟩, rfl⟩, ⟨rfl, rfl, rfl⟩, rfl, by decide⟩

/-- Channel 0 and channel 13. -/
theorem witness_ChannelPairStored :
    (ListensForServo (receiving 1 0xDC 0xFF9F) ∧ (receiving 1 0xDC 0xFF9F).fa.n = 2 * (0 : Fin 14).val + 1) ∧
    ListensForServo (receiving 27 0xDC 0xF432) ∧ (receiving 27 0xDC 0xF432).fa.n = 2 * (13 : Fin 14).val + 1 ∧
      ¬ ((receiving 27 0xDC 0xF432).fa.prev = 0x20 ∧ (0x05 : Byte) = 0x40) :=
  ⟨⟨⟨rfl, rfl, rfl⟩, rfl⟩, ⟨rfl, rfl, rfl⟩, rfl, by decide⟩

/-- V1's trailer, and V2's. -/
theorem witness_TrailerAcceptsOrDrops :
    (ListensForServo (receiving 29 0x51 0xF351) ∧ (receiving 29 0x51 0xF351).fa.n = 29 ∧
      ((0x51 : Byte).setWidth 16 ||| ((0xF3 : Byte).setWidth 16 <<< 8) : Word16) = 0xF351) ∧
    ListensForServo (receiving 29 0x50 0xF351) ∧ (receiving 29 0x50 0xF351).fa.n = 29 ∧
      ¬ ((receiving 29 0x50 0xF351).fa.prev = 0x20 ∧ (0xF3 : Byte) = 0x40) ∧
      ((0x50 : Byte).setWidth 16 ||| ((0xF3 : Byte).setWidth 16 <<< 8) : Word16) ≠ 0xF351 :=
  ⟨⟨⟨rfl, rfl, rfl⟩, rfl, by decide⟩, ⟨rfl, rfl, rfl⟩, rfl, by decide, by decide⟩

/-- A hunting block, and one inside an attempt at its last position but one. -/
theorem witness_ServoFrameAccepted :
    neutral.length = 14 ∧ noHeader (servoBody neutral (servoChecksum neutral)) = true ∧ ListensForServo State.reset ∧
      State.reset.fa.sync = false ∧ ListensForServo (receiving 28 0x05 0xF351) ∧ (receiving 28 0x05 0xF351).fa.n < 29 :=
  ⟨rfl, by decide +kernel, ⟨rfl, rfl, rfl⟩, rfl, ⟨rfl, rfl, rfl⟩, by decide⟩

theorem witness_CorruptServoFrameDropped :
    neutral.length = 14 ∧ noHeader (servoBody neutral 0xF350) = true ∧ (0xF350 : Word16) ≠ servoChecksum neutral ∧
      ListensForServo State.reset ∧ State.reset.fa.sync = false :=
  ⟨rfl, by decide +kernel, by decide +kernel, ⟨rfl, rfl, rfl⟩, rfl⟩

/-- V13: channel 1 is 0x4020, and the trailer is right. -/
theorem witness_InnerHeaderNeverAccepted :
    (0x05DC :: 0x4020 :: List.replicate 12 0x05DC : List Word16).length = 14 ∧
      noHeader (servoBody (0x05DC :: 0x4020 :: List.replicate 12 0x05DC) 0xF3D2) = false ∧
      servoChecksum (0x05DC :: 0x4020 :: List.replicate 12 0x05DC) = 0xF3D2 ∧ ListensForServo State.reset ∧
      State.reset.fa.sync = false := ⟨rfl, by decide +kernel, by decide +kernel, ⟨rfl, rfl, rfl⟩, rfl⟩

theorem witness_FramesLostWhileReceiverOff : lastSent.linectl.re = false := rfl

/-- V14. -/
theorem witness_ServoInHalfDuplexDropped :
    neutral.length = 14 ∧ ListensForQuery listening ∧ (0x04 : Byte) ∉ servoBytes neutral 0xF351 :=
  ⟨rfl, ⟨rfl, rfl, rfl, rfl⟩, by decide +kernel⟩

theorem witness_QueryLengthByte : ListensForQuery listening ∧ (0x07 : Byte) ≠ 0x04 := ⟨⟨rfl, rfl, rfl, rfl⟩, by decide⟩

theorem witness_QueryCommandByte :
    let s := { listening with fa := ⟨false, 1, 0, 0xFFFB⟩ }
    s.stall = none ∧ s.ls = .hdl ∧ s.linectl.re = true ∧ s.fa.n = 1 := by decide

/-- V31. -/
theorem witness_UnknownCommandDropped :
    let s := { listening with qcmd := 0xB1, fa := ⟨false, 3, 0x4A, 0xFF4A⟩ }
    s.stall = none ∧ s.ls = .hdl ∧ s.linectl.re = true ∧ s.fa.n = 3 ∧
      (s.fa.prev.setWidth 16 ||| ((0xFF : Byte).setWidth 16 <<< 8) : Word16) = s.fa.ck ∧ cmdIndex s.qcmd ≠ 0 ∧
      sensorType s.cfg ((cmdIndex s.qcmd).toNat - 1) ≠ 0 ∧ cmdOp s.qcmd ≠ 0x8 ∧ cmdOp s.qcmd ≠ 0x9 ∧
      cmdOp s.qcmd ≠ 0xA := by decide +kernel

/-- V32, and the same for the other two commands. -/
theorem witness_QueryTrailerMismatchDropped :
    ListensForQuery listening ∧ (0xFF7B : Word16) ≠ queryChecksum 0x8 1 ∧ (0xFF7B : Word16) ≠ queryChecksum 0x9 1 ∧
      (0xFF7B : Word16) ≠ queryChecksum 0xA 1 := ⟨⟨rfl, rfl, rfl, rfl⟩, by decide +kernel⟩

/-- V29 and V30: the reserved entry and the last index; V28's index 0 needs no further hypothesis. -/
theorem witness_UnanswerableQueryDropped_absent :
    ListensForQuery listening ∧ sensorType listening.cfg ((3 : BitVec 4).toNat - 1) = 0 ∧
      sensorType listening.cfg ((15 : BitVec 4).toNat - 1) = 0 := ⟨⟨rfl, rfl, rfl, rfl⟩, by decide +kernel⟩

/-- V35. -/
theorem witness_UnanswerableQueryDropped_width :
    ListensForQuery width3 ∧ sensorType width3.cfg ((1 : BitVec 4).toNat - 1) ≠ 0 ∧
      typeWidth (sensorType width3.cfg ((1 : BitVec 4).toNat - 1)) ≠ 2 ∧
      typeWidth (sensorType width3.cfg ((1 : BitVec 4).toNat - 1)) ≠ 4 := ⟨⟨rfl, rfl, rfl, rfl⟩, by decide +kernel⟩

/-- Sensors 1 and 2, for the answers and the exchanges of Probe and Type. -/
theorem witness_QueryAnswered :
    ListensForQuery listening ∧ (1 : BitVec 4) ≠ 0 ∧ sensorType listening.cfg ((1 : BitVec 4).toNat - 1) ≠ 0 ∧
      sensorType listening.cfg ((2 : BitVec 4).toNat - 1) ≠ 0 := ⟨⟨rfl, rfl, rfl, rfl⟩, by decide +kernel⟩

/-- V25: width 2. -/
theorem witness_ValueQueryAnswered_width2 :
    ListensForQuery (scripted [.value 100]) ∧ (1 : BitVec 4).toNat = (0 : Fin 3).val + 1 ∧
      sensorType (scripted [.value 100]).cfg (0 : Fin 3).val ≠ 0 ∧
      typeWidth (sensorType (scripted [.value 100]).cfg (0 : Fin 3).val) = 2 ∧
      ∃ s1, adcRead (scripted [.value 100]).cfg.reg[(0 : Fin 3)].chan (scripted [.value 100]) = (some 100, s1) :=
  ⟨⟨rfl, rfl, rfl, rfl⟩, rfl, by decide +kernel, by decide +kernel, _, rfl⟩

/-- V24: width 4. -/
theorem witness_ValueQueryAnswered_width4 :
    ListensForQuery (scripted [.value 2048]) ∧ (2 : BitVec 4).toNat = (1 : Fin 3).val + 1 ∧
      sensorType (scripted [.value 2048]).cfg (1 : Fin 3).val ≠ 0 ∧
      typeWidth (sensorType (scripted [.value 2048]).cfg (1 : Fin 3).val) = 4 ∧
      ∃ s1, adcRead (scripted [.value 2048]).cfg.reg[(1 : Fin 3)].chan (scripted [.value 2048]) = (some 2048, s1) :=
  ⟨⟨rfl, rfl, rfl, rfl⟩, rfl, by decide +kernel, by decide +kernel, _, rfl⟩

theorem witness_ValueQueryStalls :
    ListensForQuery (scripted [.never]) ∧ sensorType (scripted [.never]).cfg (0 : Fin 3).val ≠ 0 ∧
      typeWidth (sensorType (scripted [.never]).cfg (0 : Fin 3).val) = 2 ∧
      ∃ s1, adcRead (scripted [.never]).cfg.reg[(0 : Fin 3)].chan (scripted [.never]) = (none, s1) :=
  ⟨⟨rfl, rfl, rfl, rfl⟩, by decide +kernel, by decide +kernel, _, rfl⟩

theorem witness_AdcReadAnswers :
    (scripted [.value 100]).adc = .value 100 :: [] ∧ (scripted [.never]).adc = .never :: [] ∧ listening.adc = [] :=
  ⟨rfl, rfl, rfl⟩

/-- The four kinds of response, each waiting in the buffer. -/
theorem witness_ResponseTransmitted :
    HoldsResponse [0x04, 0x81, 0x7A, 0xFF] (holding [0x04, 0x81, 0x7A, 0xFF] 0) ∧
    HoldsResponse [0x06, 0x91, 0x01, 0x02, 0x65, 0xFF] (holding [0x06, 0x91, 0x01, 0x02, 0x65, 0xFF] 0) ∧
    HoldsResponse [0x06, 0xA1, 0x5C, 0xFE, 0xFE, 0xFD] (holding [0x06, 0xA1, 0x5C, 0xFE, 0xFE, 0xFD] 0) ∧
    HoldsResponse [0x08, 0xA2, 0xE6, 0x46, 0x00, 0x00, 0x29, 0xFE]
      (holding [0x08, 0xA2, 0xE6, 0x46, 0x00, 0x00, 0x29, 0xFE] 0) :=
  ⟨⟨rfl, rfl, rfl, rfl, rfl, by decide +kernel⟩, ⟨rfl, rfl, rfl, rfl, rfl, by decide +kernel⟩,
   ⟨rfl, rfl, rfl, rfl, rfl, by decide +kernel⟩, rfl, rfl, rfl, rfl, rfl, by decide +kernel⟩

/-- A response to another query, one half sent, and one of a block that listens. -/
theorem witness_ResponseTransmitted_notPending :
    NotPending [0x04, 0x82, 0x79, 0xFF] (holding [0x04, 0x81, 0x7A, 0xFF] 0) ∧
    NotPending [0x04, 0x81, 0x7A, 0xFF] (holding [0x04, 0x81, 0x7A, 0xFF] 1) ∧ NotPending [0x04, 0x81, 0x7A, 0xFF] listening :=
  ⟨.inr (.inr (.inr (by decide +kernel))), .inr (.inr (.inl (by decide))), .inr (.inl (by decide))⟩

/-- A byte with more to come, and the last byte. -/
theorem witness_TxePushesOneByte :
    (let s := holding [0x04, 0x81, 0x7A, 0xFF] 0
     s.rb.pos < 8 ∧ s.stall = none ∧ s.ls = .hdt ∧ s.linectl = lineRow .hdt ∧ s.rb.pos + 1 ≠ s.rb.len) ∧
    (let s := holding [0x08, 0xA2, 0xE6, 0x46, 0x00, 0x00, 0x29, 0xFE] 7
     s.rb.pos < 8 ∧ s.stall = none ∧ s.ls = .hdt ∧ s.linectl = lineRow .hdt ∧ s.rb.pos + 1 = s.rb.len) := by decide

theorem witness_TcReturnsToListening :
    lastSent.stall = none ∧ lastSent.ls = .hdtr ∧ lastSent.linectl = lineRow .hdtr := by decide

theorem witness_TmoRevertsToFullDuplex : lastSent.stall = none ∧ lastSent.tmrArmed = true := by decide

/-- An index out of range, the absent entry, an installed one. -/
theorem witness_SensorTypeLookup : (3 ≤ 3) ∧ rc.reg[2].chan = 0 ∧ rc.reg[1].chan ≠ 0 := by decide

theorem witness_FilterAndConversionExact :
    (2 ^ 24 - 1 < 2 ^ 24) ∧ (⟨0, false⟩ : Filter).seeded = false ∧ (⟨0x7FFFFFFF, true⟩ : Filter).seeded = true ∧
      (⟨0x7FFFFFFF, true⟩ : Filter).acc.toNat < 2 ^ 31 ∧ convFits 12 (.scaled 3300 500) = true ∧ 4095 < 2 ^ 12 ∧
      1 < [(0 : Word32), 7].length := by decide

/-- R105's examples. -/
theorem test_convert :
    (convert rc.conv[0] 100).toInt = -420 ∧ (convert rc.conv[1] 2049).toInt = 18158 := by decide +kernel

/-- V45 and V43. -/
theorem witness_FilterStaysInRange :
    12 ≤ 24 ∧ 4095 < 2 ^ 12 ∧ ((⟨524287, true⟩ : Filter).seeded = true → (⟨524287, true⟩ : Filter).acc.toNat < 2 ^ (12 + 7)) := by
  decide

theorem witness_FilterConverges :
    12 ≤ 24 ∧ 200 < 2 ^ 12 ∧ (⟨12800, true⟩ : Filter).seeded = true ∧ (⟨12800, true⟩ : Filter).acc.toNat < 2 ^ (12 + 7) ∧
      filterReport (filterRun ⟨12800, true⟩ 200 0) ≤ 200 := by decide

/-- V60, on both sides of both thresholds. -/
theorem witness_SwitchPositions : rc.swLo ≤ rc.swHi ∧ 1299 < rc.swLo ∧ rc.swHi < 1701 ∧ rc.swLo ≤ 1300 ∧ 1700 ≤ rc.swHi := by
  decide

theorem witness_ValveCurveShape :
    decodeOk rc = true ∧ 49 < rc.valveMin ∧ ¬ 50 < rc.valveMin ∧ rc.vcurve = .twoSlope ∧ 149 < rc.valveKnee ∧ rc.valveMin ≤ 150 :=
  by decide +kernel

theorem witness_ValveDecode : decodeOk rc = true ∧ (0 : Int) ≤ 50 := by decide +kernel

/-- V63: (0, 251) snaps, (0, 250) does not. -/
theorem witness_RampLimitedAndNoOvershoot :
    snaps rc 0 251 = true ∧ snaps rc 0 250 = false ∧ snaps rc 100 0 = false ∧ ((5 - 0 : Int)).natAbs ≤ 10 ∧
      rc.snap = .centred ∧ (0 + 10 : Int) < 100 ∧ (-300 : Int) < 300 - 10 := by decide

theorem witness_RampReachesTarget : 1 ≤ rc.pumpStep ∧ ((400 : Int) - 0).natAbs ≤ 400 := by decide

theorem witness_MixWritesOutputs : State.reset.cfg.mixf = rc.mixf ∧ State.reset.cfg.doutf = rc.doutf := ⟨rfl, rfl⟩

theorem witness_DutiesWithinClamps : outputsOk rc = true := by decide +kernel

theorem witness_MixReadsOnlyItsInputs :
    listening.cvs = State.reset.cvs ∧ listening.ramp = State.reset.ramp ∧ listening.cfg = State.reset.cfg := ⟨rfl, rfl, rfl⟩

end Sys2Proof.Tests
end

/-! ## Proofs: the scope of the block (00_scope)

What one step runs, that no instruction writes the configuration, and that no instruction reads the drop log. -/

namespace Sys2Proof.Machine

/-! ### The step runs what the schedule holds -/

/-- With a legal configuration the step is the `exec` of the decoded head of the schedule. -/
theorem step_of_decoded {s : State} {c : Code} {rest : List Slot} {i : Instr} (hcfg : cfgOk s.cfg = true)
    (hfetch : fetch s.inbox = some (c, rest)) (hdecode : decode c = .ok i) :
    step s = exec i { s with inbox := rest } := by
  simp only [step, hcfg, if_true, hfetch, hdecode]

/-- Settles O4: `step` on a legal configuration, unfolded once in `step_of_decoded`. -/
theorem stepRunsDecoded : Obligations.StepRunsDecoded :=
  fun _ _ _ _ => step_of_decoded

/-- A table word stands for an instruction exactly when its coded input decodes to it. -/
theorem decodeTableWord_eq_some {nbits w : Nat} {i : Instr} :
    decodeTableWord nbits w = some i ↔ decode (codeOfWord nbits w) = .ok i := by
  unfold decodeTableWord
  cases decode (codeOfWord nbits w) <;> simp

/-- Settles O5: the placed word is the head of the schedule, and taking it gives back the state it was placed in. -/
theorem placedWordRuns : Obligations.PlacedWordRuns := by
  intro s nbits w i hcfg hword
  have hfetch : fetch (s.withFetchWord nbits w).inbox = some (codeOfWord nbits w, s.inbox) := rfl
  exact step_of_decoded (s := s.withFetchWord nbits w) hcfg hfetch (decodeTableWord_eq_some.mp hword)

/-! ### No event writes the configuration -/

@[simp] theorem servoAccept_cfg (s : State) : (servoAccept s).cfg = s.cfg := by rw [servoAccept_eq]

@[simp] theorem rxServo_cfg (b : Byte) (s : State) : (rxServo b s).cfg = s.cfg := by
  rcases rxServo_cases b s with
    ⟨-, -, h⟩ | ⟨-, ⟨-, h⟩ | ⟨-, -, h⟩ | ⟨-, -, -, h⟩ | ⟨-, -, -, -, h⟩ | ⟨-, -, -, -, h⟩⟩ <;> rw [h]
  exact servoAccept_cfg _

@[simp] theorem queryExec_cfg (c : Byte) (w : Word16) (s : State) : (queryExec c w s).cfg = s.cfg := by
  rcases queryExec_cases c w s with
    ⟨e, -, h⟩ | ⟨-, bs, -, h⟩ | ⟨-, k, -, -, adc, draws, h | ⟨raw, -, bs, -, h⟩⟩ <;> rw [h]
  · exact raiseDrop_cfg e s
  · rw [startTx_fill_eq]
  · rw [startTx_fill_eq]

@[simp] theorem rxQuery_cfg (b : Byte) (s : State) : (rxQuery b s).cfg = s.cfg := by
  rcases rxQuery_cases b s with
    ⟨-, -, h⟩ | ⟨-, -, h⟩ | ⟨-, h⟩ | ⟨-, h⟩ | ⟨-, -, h⟩ | ⟨-, -, h⟩ | ⟨-, h⟩ <;> rw [h]
  · exact raiseDrop_cfg _ s
  · exact queryExec_cfg _ _ _
  · exact raiseDrop_cfg _ _

@[simp] theorem rx_cfg (b : Byte) (s : State) : (rx b s).cfg = s.cfg := by
  rcases rx_cases b s with h | ⟨-, -, -, h⟩ | ⟨-, -, -, h⟩ <;> rw [h]
  · exact rxServo_cfg b s
  · exact rxQuery_cfg b s

theorem txe_cfg {s t : State} (h : txe s = .next t) : t.cfg = s.cfg := by
  rcases txe_cases s with hs | ⟨-, -, -, ⟨-, hs⟩ | ⟨hp, hs⟩⟩ <;> rw [hs] at h <;> cases h
  · rfl
  · rw [txeHandler_eq]
    split <;> rfl

@[simp] theorem tc_cfg (s : State) : (tc s).cfg = s.cfg := by
  rcases tc_cases s with h | ⟨-, -, -, h⟩ <;> rw [h]
  rw [tcHandler_eq]

@[simp] theorem tmo_cfg (s : State) : (tmo s).cfg = s.cfg := by
  rcases tmo_cases s with h | ⟨-, -, h⟩ <;> rw [h]
  rw [tmoHandler_eq]

/-- Settles O11: EV_RST keeps the configuration by definition, and every other instruction is a sequence of events that keep
it. -/
theorem configurationNeverWritten : Obligations.ConfigurationNeverWritten := by
  intro i s t hexec
  by_cases hi : i = .evRst
  · subst hi
    cases hexec
    rfl
  · exact exec_induction (P := fun u => u.cfg = s.cfg) (fun b u hu => (rx_cfg b u).trans hu)
      (fun u v hu hv => (txe_cfg hv).trans hu) (fun u hu => (tc_cfg u).trans hu)
      (fun u hu => (tmo_cfg u).trans hu) hi rfl hexec

/-! ### No event reads the drop log

A state update that commutes with replacing the log is blind to it; the log it leaves may differ, since a drop appends
to the log it finds and EV_RST clears it. -/

/-- `s` with another drop log. -/
def State.withDrops (s : State) (d : List ErrorKind) : State := { s with drops := d }

/-- With another drop log, `f` does the same to the rest of the state. -/
def LogBlind (f : State → State) : Prop :=
  ∀ (s : State) (d : List ErrorKind), ∃ d', f (s.withDrops d) = (f s).withDrops d'

/-- The same for a meaning that may stop: where it answers a next state, so it does with another drop log. -/
def OutcomeLogBlind (f : State → Host.Outcome State Fault Refusal) : Prop :=
  ∀ (s t : State) (d : List ErrorKind), f s = .next t → ∃ d', f (s.withDrops d) = .next (t.withDrops d')

theorem LogBlind.next {f : State → State} (hf : LogBlind f) : OutcomeLogBlind fun s => .next (f s) := by
  intro s t d h
  cases h
  obtain ⟨d', hd⟩ := hf s d
  exact ⟨d', congrArg _ hd⟩

/-- A choice between two blind updates is blind when its condition does not read the log. -/
theorem LogBlind.ite {c : State → Prop} {_ : ∀ s, Decidable (c s)} {f g : State → State}
    (hc : ∀ s d, c (s.withDrops d) ↔ c s) (hf : LogBlind f) (hg : LogBlind g) :
    LogBlind fun s => if c s then f s else g s := by
  intro s d
  by_cases h : c s
  · simpa only [if_pos h, if_pos ((hc s d).mpr h)] using hf s d
  · simpa only [if_neg h, if_neg (mt (hc s d).mp h)] using hg s d

theorem OutcomeLogBlind.ite {c : State → Prop} {_ : ∀ s, Decidable (c s)}
    {f g : State → Host.Outcome State Fault Refusal}
    (hc : ∀ s d, c (s.withDrops d) ↔ c s) (hf : OutcomeLogBlind f) (hg : OutcomeLogBlind g) :
    OutcomeLogBlind fun s => if c s then f s else g s := by
  intro s t d
  by_cases h : c s
  · simpa only [if_pos h, if_pos ((hc s d).mpr h)] using hf s t d
  · simpa only [if_neg h, if_neg (mt (hc s d).mp h)] using hg s t d

/-! #### The handlers of EV_RX -/

theorem logBlind_id : LogBlind fun s => s := fun _ d => ⟨d, rfl⟩

theorem raiseDrop_logBlind (e : ErrorKind) : LogBlind (raiseDrop e) := fun _ d => ⟨d ++ [e], rfl⟩

theorem servoAccept_logBlind : LogBlind servoAccept := by
  intro s d
  rw [servoAccept_eq, servoAccept_eq]
  exact ⟨d, rfl⟩

theorem headerMatch_logBlind : LogBlind headerMatch :=
  .ite (fun _ _ => Iff.rfl)
    (fun s d => raiseDrop_logBlind .resync { s with fa := { s.fa with sync := true, n := 0, ck := ckAfterHeader } } d)
    (fun _ d => ⟨d, rfl⟩)

theorem checksumPair_logBlind (w : Word16) : LogBlind (checksumPair w) :=
  .ite (fun _ _ => Iff.rfl)
    (fun s d => servoAccept_logBlind { s with fa := { s.fa with sync := false, n := 0 } } d)
    (fun s d => raiseDrop_logBlind .cksum { s with fa := { s.fa with sync := false, n := 0 } } d)

/-- The byte parser, branch by branch: header, hunting, first byte of a pair, channel pair, trailer (R121 to R125). -/
theorem rxServo_logBlind (b : Byte) : LogBlind (rxServo b) :=
  .ite (fun _ _ => Iff.rfl) (fun s d => headerMatch_logBlind { s with fa := { s.fa with prev := b } } d) <|
  .ite (fun _ _ => Iff.rfl) (fun _ d => ⟨d, rfl⟩) <|
  .ite (fun _ _ => Iff.rfl) (fun _ d => ⟨d, rfl⟩) <|
  .ite (fun _ _ => Iff.rfl) (fun _ d => ⟨d, rfl⟩)
    (fun s d => checksumPair_logBlind (pair s.fa.prev b) { s with fa := { s.fa with prev := b } } d)

/-- An acquisition neither reads nor writes the drop log. -/
theorem adcRead_withDrops (chan : Nat) (s : State) (d : List ErrorKind) :
    adcRead chan (s.withDrops d) = ((adcRead chan s).1, (adcRead chan s).2.withDrops d) := by
  unfold adcRead nextReply emit State.withDrops
  cases s.adc with
  | cons r rest => cases r <;> rfl
  | nil => cases Config.adcDraw s.draws <;> rfl

/-- Nor does `SensorValue`. -/
theorem sensorValue_withDrops (k : Fin 3) (s : State) (d : List ErrorKind) :
    sensorValue k (s.withDrops d) = ((sensorValue k s).1, (sensorValue k s).2.withDrops d) := by
  have hcfg : (s.withDrops d).cfg = s.cfg := rfl
  simp only [sensorValue, hcfg, adcRead_withDrops]
  by_cases habsent : s.cfg.reg[k].chan = 0
  · simp only [if_pos habsent]
  · simp only [if_neg habsent]
    match adcRead s.cfg.reg[k].chan s with
    | (none, _) => rfl
    | (some _, _) => rfl

theorem startTx_fill_logBlind (bs : List Byte) : LogBlind fun s => startTx (fillResponse bs s) :=
  fun _ d => ⟨d, rfl⟩

theorem valueQuery_logBlind (c : Byte) (k : Fin 3) (t : Word16) : LogBlind (valueQuery c k t) := by
  refine .ite (fun _ _ => Iff.rfl) (fun s d => ?_) (raiseDrop_logBlind .width)
  rw [sensorValue_withDrops]
  match sensorValue k s with
  | (.value v, u) => exact startTx_fill_logBlind _ u d
  | (.noValue, u) => exact raiseDrop_logBlind .absent u d
  | (.stalled, _) => exact ⟨d, rfl⟩

/-- The tests of R143 in order: index, existence, then the three commands. -/
theorem queryExec_logBlind (c : Byte) (w : Word16) : LogBlind (queryExec c w) :=
  .ite (fun _ _ => Iff.rfl) (raiseDrop_logBlind .idx0) <|
  .ite (fun _ _ => Iff.rfl) (raiseDrop_logBlind .absent) <|
  .ite (fun _ _ => Iff.rfl) (startTx_fill_logBlind _) <|
  .ite (fun _ _ => Iff.rfl) (fun s d => startTx_fill_logBlind _ s d) <|
  .ite (fun _ _ => Iff.rfl) (fun s d => valueQuery_logBlind c _ _ s d) (raiseDrop_logBlind .cmd)

theorem rxLength_logBlind (b : Byte) : LogBlind (rxLength b) :=
  .ite (fun _ _ => Iff.rfl) (fun _ d => ⟨d, rfl⟩) (raiseDrop_logBlind .len)

theorem rxTrailerHigh_logBlind (b : Byte) : LogBlind (rxTrailerHigh b) :=
  .ite (fun _ _ => Iff.rfl)
    (fun s d => queryExec_logBlind s.qcmd (pair s.fa.prev b) { s with fa := { s.fa with n := 0 } } d)
    (fun s d => raiseDrop_logBlind .cksum { s with fa := { s.fa with n := 0 } } d)

theorem rxQuery_logBlind (b : Byte) : LogBlind (rxQuery b) := by
  intro s d
  have hfa : (s.withDrops d).fa = s.fa := rfl
  simp only [rxQuery, hfa]
  match s.fa.n with
  | 0 => exact rxLength_logBlind b s d
  | 1 => exact ⟨d, rfl⟩
  | 2 => exact ⟨d, rfl⟩
  | 3 => exact rxTrailerHigh_logBlind b s d
  | _ + 4 => exact ⟨d, rfl⟩

theorem rx_logBlind (b : Byte) : LogBlind (rx b) := by
  refine .ite (fun _ _ => Iff.rfl) (fun s d => ?_) logBlind_id
  have hls : (s.withDrops d).ls = s.ls := rfl
  rw [hls]
  cases s.ls with
  | fdl => exact rxServo_logBlind b s d
  | hdl => exact rxQuery_logBlind b s d
  | hdt => exact ⟨d, rfl⟩
  | hdtr => exact ⟨d, rfl⟩

theorem rxAll_logBlind (bytes : List Byte) : LogBlind (rxAll bytes) := by
  induction bytes with
  | nil => exact logBlind_id
  | cons b bs ih =>
    intro s d
    obtain ⟨d₁, hfirst⟩ := rx_logBlind b s d
    obtain ⟨d₂, hrest⟩ := ih (rx b s) d₁
    exact ⟨d₂, by rw [rxAll, hfirst, hrest, rxAll]⟩

/-! #### The other events, and responses -/

theorem tc_logBlind : LogBlind tc := .ite (fun _ _ => Iff.rfl) (fun _ d => ⟨d, rfl⟩) logBlind_id

theorem tmo_logBlind : LogBlind tmo := .ite (fun _ _ => Iff.rfl) (fun _ d => ⟨d, rfl⟩) logBlind_id

theorem resetState_logBlind : LogBlind resetState := fun _ _ => ⟨[], rfl⟩

theorem txeHandler_logBlind (b : Byte) : LogBlind (txeHandler b) :=
  .ite (fun _ _ => Iff.rfl) (fun _ d => ⟨d, rfl⟩) (fun _ d => ⟨d, rfl⟩)

theorem txe_logBlind : OutcomeLogBlind txe := by
  refine .ite (fun _ _ => Iff.rfl) (fun s t d h => ?_) logBlind_id.next
  have hrb : (s.withDrops d).rb = s.rb := rfl
  rw [hrb]
  cases hbyte : s.rb.data[s.rb.pos]? with
  | some b =>
    rw [hbyte] at h
    exact (txeHandler_logBlind b).next s t d h
  | none =>
    rw [hbyte] at h
    cases h

theorem drain_logBlind (n : Nat) : OutcomeLogBlind (drain n) := by
  induction n with
  | zero => exact tc_logBlind.next
  | succ n ih =>
    intro s t d h
    rw [drain] at h
    cases htxe : txe s with
    | next u =>
      rw [htxe] at h
      obtain ⟨d₁, hfirst⟩ := txe_logBlind s u d htxe
      rw [drain, hfirst]
      exact ih u t d₁ h
    | fault r => rw [htxe] at h; cases h
    | refused r => rw [htxe] at h; cases h

theorem transmit_logBlind (bytes : List Byte) : OutcomeLogBlind (transmit bytes) :=
  .ite (fun _ _ => Iff.rfl) (drain_logBlind bytes.length) logBlind_id.next

/-- No instruction reads the drop log: a frame is a sequence of events, and every event is blind to it. -/
theorem exec_logBlind (i : Instr) : OutcomeLogBlind (exec i) := by
  cases i with
  | servo pairs ck => exact (rxAll_logBlind _).next
  | qProbe k ck => exact (rxAll_logBlind _).next
  | qType k ck => exact (rxAll_logBlind _).next
  | qValue k ck => exact (rxAll_logBlind _).next
  | rProbe k ck => exact transmit_logBlind _
  | rType k t ck => exact transmit_logBlind _
  | rValue2 k v ck => exact transmit_logBlind _
  | rValue4 k v ck => exact transmit_logBlind _
  | evRst => exact resetState_logBlind.next
  | evRx b => exact (rx_logBlind b).next
  | evTxe => exact txe_logBlind
  | evTc => exact tc_logBlind.next
  | evTmo => exact tmo_logBlind.next

/-- Settles O18: every instruction is blind to the log. -/
theorem dropLogNeverRead : Obligations.DropLogNeverRead := exec_logBlind

end Sys2Proof.Machine

/-! ## Proofs: reset and the invariants (10_state)

EV_RST puts the registers of R39 at their reset values, a state with these values and a legal configuration meets the
invariants of R40, and every step keeps them. -/

namespace Sys2Proof.Machine

/-! ### Reset (R39) -/

/-- The registers to which R39 gives a reset value hold it, the traces are empty and no handler is stalled. -/
structure AtReset (t : State) : Prop where
  ls : t.ls = .fdl
  sync : t.fa.sync = false
  position : t.fa.n = 0
  prev : t.fa.prev = 0x00
  responseLen : t.rb.len = 0
  responsePos : t.rb.pos = 0
  disarmed : t.tmrArmed = false
  line : t.linectl = ⟨false, true, false, false, false⟩
  unseeded : ∀ k : Fin 3, t.filt[k].seeded = false
  ramp : ∀ j : Fin 4, t.ramp[j] = 0
  wire : t.wireOut = []
  wdg : t.wdgOut = []
  stall : t.stall = none

/-- EV_RST leads to the reset values from every state, a stalled one too. -/
theorem atReset_resetState (s : State) : AtReset (resetState s) :=
  ⟨rfl, rfl, rfl, rfl, rfl, rfl, rfl, rfl, by simp [resetState], by simp [resetState], rfl, rfl, rfl⟩

/-- The machine right after reset holds them, whatever configuration and environment it is given. -/
theorem atReset_reset (cfg : ConfigRec) (inbox : List Slot) (adc : List AdcReply) :
    AtReset { State.reset with cfg := cfg, inbox := inbox, adc := adc } :=
  ⟨rfl, rfl, rfl, rfl, rfl, rfl, rfl, rfl, by simp [State.reset], by simp [State.reset], rfl, rfl, rfl⟩

/-- The reset values of R39 meet the invariants of R40. -/
theorem AtReset.inv {t : State} (h : AtReset t) (hcfg : cfgOk t.cfg = true) : Inv t where
  cfgLegal := hcfg
  armedIffHalfDuplex := by simp [h.disarmed, h.ls]
  lineOfState := by rw [h.line, h.ls, lineRow]
  cursors := by simp [h.responseLen, h.responsePos]
  bytesLeft := by simp [h.ls]
  responseLength := by simp [h.ls]
  huntingOutsideFdl _ := h.sync
  servoPosition _ := by simp [h.position]
  queryPosition _ := by simp [h.position]
  absentUnseeded k _ := h.unseeded k
  accBound k hseeded := absurd ((h.unseeded k).symm.trans hseeded) Bool.false_ne_true
  pumpNonneg := (h.ramp 0).ge
  stallInQuery hstall := absurd h.stall hstall

/-- The reference configuration meets the constraints of R6. -/
theorem cfgOk_rc : cfgOk rc = true := by decide

/-- Settles O48: `resetState` holds the reset values, and takes configuration and schedule from the state it is run in. -/
theorem resetFromAnyState : Obligations.ResetFromAnyState := by
  intro s
  have h := atReset_resetState s
  exact ⟨resetState s, rfl, h.ls, h.sync, h.position, h.prev, h.responseLen, h.responsePos, h.disarmed, h.line,
    h.unseeded, h.ramp, h.wire, h.wdg, h.stall, rfl, rfl⟩

/-- Settles O8: the reset values meet the invariants with every legal configuration, RC among them. -/
theorem resetMeetsInvariants : Obligations.ResetMeetsInvariants :=
  ⟨(atReset_reset rc [] []).inv cfgOk_rc, fun cfg inbox adc hcfg => (atReset_reset cfg inbox adc).inv hcfg⟩

/-! ### The filter stays in its range (R103, R40 I8) -/

/-- A legal configuration's readings have at most 24 bits (R6). -/
theorem rawBits_le_of_cfgOk {cfg : ConfigRec} (h : cfgOk cfg = true) : cfg.rawBits ≤ 24 := by
  simp only [cfgOk, sensorsOk, Bool.and_eq_true, decide_eq_true_eq] at h
  obtain ⟨⟨⟨⟨-, hbits⟩, -⟩, -⟩, -⟩ := h
  exact hbits

@[simp] theorem filterNext_seeded (f : Filter) (raw : Nat) : (filterNext f raw).seeded = true := by
  unfold filterNext
  split <;> rfl

/-- The seeding sample (R103). -/
theorem filterNext_acc_of_unseeded {f : Filter} {raw : Nat} (hf : f.seeded = false) (hraw : raw < 2 ^ 24) :
    (filterNext f raw).acc.toNat = raw * 128 := by
  simp only [filterNext, hf, Bool.false_eq_true, if_false, Config.fshift, BitVec.toNat_shiftLeft, BitVec.toNat_ofNat,
    Nat.shiftLeft_eq]
  omega

/-- A later sample: the 32-bit arithmetic does not wrap (R103, D18). -/
theorem filterNext_acc_of_seeded {f : Filter} {raw : Nat} (hf : f.seeded = true) (hraw : raw < 2 ^ 24)
    (hacc : f.acc.toNat < 2 ^ 31) : (filterNext f raw).acc.toNat = raw + f.acc.toNat - f.acc.toNat / 128 := by
  simp only [filterNext, hf, if_true, Config.fshift, BitVec.toNat_sub, BitVec.toNat_add, BitVec.toNat_ofNat,
    BitVec.toNat_ushiftRight, Nat.shiftRight_eq_div_pow]
  omega

/-- One sample keeps the accumulator within the reading's bits and seven more (R104 e). -/
theorem filterNext_acc_lt {f : Filter} {raw bits : Nat} (hbits : bits ≤ 24) (hraw : raw < 2 ^ bits)
    (hacc : f.seeded = true → f.acc.toNat < 2 ^ (bits + 7)) : (filterNext f raw).acc.toNat < 2 ^ (bits + 7) := by
  have hpow : 2 ^ bits ≤ 2 ^ 24 := Nat.pow_le_pow_right (by decide) hbits
  rw [pow_add] at hacc ⊢
  cases hf : f.seeded with
  | false =>
    rw [filterNext_acc_of_unseeded hf (by omega)]
    omega
  | true =>
    have hlt := hacc hf
    rw [filterNext_acc_of_seeded hf (by omega) (by omega)]
    omega

/-! ### What keeps the invariants

One lemma per kind of change: to the parser in FDL and in HDL, to the filters, to the stall, and the link's transitions. -/

section Preservation

variable {s : State}

/-- No invariant speaks of the schedule. -/
theorem Inv.withInbox (h : Inv s) (inbox : List Slot) : Inv { s with inbox := inbox } := { h with }

/-- The servo parser may move to any position up to 29 (I6). -/
theorem Inv.servoParser (h : Inv s) (hstall : s.stall = none) (hls : s.ls = .fdl) {n : Nat} (hn : n ≤ 29)
    {sync : Bool} {prev : Byte} {ck : Word16} {tf : Vector Chan12 14} {drops : List ErrorKind} :
    Inv { s with fa := ⟨sync, n, prev, ck⟩, tf := tf, drops := drops } :=
  { h with
    huntingOutsideFdl := fun hne => absurd hls hne
    servoPosition := fun _ => hn
    queryPosition := fun hq => by rw [hls] at hq; cases hq
    stallInQuery := fun hne => absurd hstall hne }

/-- The query parser may move to any position up to 3, with `FA.sync` left at 0 (I5, I6). -/
theorem Inv.queryParser (h : Inv s) (hstall : s.stall = none) (hls : s.ls = .hdl) {n : Nat} (hn : n ≤ 3)
    {prev : Byte} {ck : Word16} {qcmd : Byte} {drops : List ErrorKind} :
    Inv { s with fa := ⟨s.fa.sync, n, prev, ck⟩, qcmd := qcmd, drops := drops } :=
  { h with
    servoPosition := fun hf => by rw [hls] at hf; cases hf
    queryPosition := fun _ => hn
    stallInQuery := fun hne => absurd hstall hne }

/-- An acquisition that returns a reading of an installed sensor (I7, I8). -/
theorem Inv.sample (h : Inv s) {k : Fin 3} {raw : Nat} (hchan : s.cfg.reg[k].chan ≠ 0) (hraw : raw < 2 ^ s.cfg.rawBits)
    {io : List IoOp} {adc : List AdcReply} {draws : Nat} :
    Inv { s with io := io, adc := adc, draws := draws, filt := s.filt.set k (filterNext s.filt[k] raw) } :=
  { h with
    absentUnseeded := fun j hj => by
      have hne : k.val ≠ j.val := fun he => hchan (Fin.ext he ▸ hj)
      simpa [Vector.getElem_set_ne k.isLt j.isLt hne] using h.absentUnseeded j hj
    accBound := fun j hj => by
      by_cases he : k = j
      · subst he
        simpa using filterNext_acc_lt (rawBits_le_of_cfgOk h.cfgLegal) hraw (h.accBound k)
      · have hne : k.val ≠ j.val := fun hv => he (Fin.ext hv)
        simpa [Vector.getElem_set_ne k.isLt j.isLt hne] using
          h.accBound j (by simpa [Vector.getElem_set_ne k.isLt j.isLt hne] using hj) }

/-- An acquisition that never returns, during a verified query (R214). -/
theorem Inv.stalled (h : Inv s) (hls : s.ls = .hdl) (hn : s.fa.n = 0) {chan : Nat} {io : List IoOp}
    {adc : List AdcReply} {draws : Nat} :
    Inv { s with io := io, adc := adc, draws := draws, stall := some chan } :=
  { h with stallInQuery := fun _ => ⟨hls, hn⟩ }

/-- FDL to HDL: the acceptance of a SERVO frame (R126). -/
theorem Inv.servoAccept (h : Inv s) (hstall : s.stall = none) (hls : s.ls = .fdl) : Inv (servoAccept s) := by
  rw [servoAccept_eq]
  exact { h with
    armedIffHalfDuplex := by simp
    lineOfState := by simp [h.lineOfState, hls, lineRow]
    bytesLeft := nofun
    responseLength := nofun
    huntingOutsideFdl := fun _ => rfl
    servoPosition := nofun
    queryPosition := fun _ => Nat.zero_le 3
    pumpNonneg := mixRamp_pump_nonneg (s := publish s) h.pumpNonneg
    stallInQuery := fun hne => absurd hstall hne }

/-- HDL to HDT: a verified query is answered with 4, 6 or 8 bytes (R147, R148). -/
theorem Inv.startTx_fill (h : Inv s) (hstall : s.stall = none) (hls : s.ls = .hdl) {bs : List Byte}
    (hlen : bs.length = 4 ∨ bs.length = 6 ∨ bs.length = 8) : Inv (startTx (fillResponse bs s)) := by
  rw [startTx_fill_eq]
  exact { h with
    armedIffHalfDuplex := by simp [h.armedIffHalfDuplex, hls]
    lineOfState := by simp [h.lineOfState, hls, lineRow]
    cursors := ⟨Nat.zero_le _, by dsimp only; omega⟩
    bytesLeft := fun _ => by dsimp only; omega
    responseLength := fun _ => hlen
    huntingOutsideFdl := fun _ => h.huntingOutsideFdl (by simp [hls])
    servoPosition := nofun
    queryPosition := nofun
    stallInQuery := fun hne => absurd hstall hne }

/-- HDT to itself or to HDTR: one byte of the response is sent (R149). -/
theorem Inv.txeHandler (h : Inv s) (hstall : s.stall = none) (hls : s.ls = .hdt) (b : Byte) :
    Inv (txeHandler b s) := by
  have hleft := h.bytesLeft hls
  have hlen := h.responseLength (.inl hls)
  have hmax := h.cursors.2
  rw [txeHandler_eq]
  split
  case isTrue hlast =>
    exact { h with
      armedIffHalfDuplex := by simp [h.armedIffHalfDuplex, hls]
      lineOfState := by simp [h.lineOfState, hls, lineRow]
      cursors := ⟨hleft, hmax⟩
      bytesLeft := nofun
      responseLength := fun _ => hlen
      huntingOutsideFdl := fun _ => h.huntingOutsideFdl (by simp [hls])
      servoPosition := nofun
      queryPosition := nofun
      stallInQuery := fun hne => absurd hstall hne }
  case isFalse hmore =>
    exact { h with
      cursors := ⟨hleft, hmax⟩
      bytesLeft := fun _ => Nat.lt_of_le_of_ne hleft hmore }

/-- HDTR to HDL: the transmission is complete (R150). -/
theorem Inv.tcHandler (h : Inv s) (hstall : s.stall = none) (hls : s.ls = .hdtr) : Inv (tcHandler s) := by
  rw [tcHandler_eq]
  exact { h with
    armedIffHalfDuplex := by simp [h.armedIffHalfDuplex, hls]
    lineOfState := by simp [h.lineOfState, hls, lineRow]
    bytesLeft := nofun
    responseLength := nofun
    huntingOutsideFdl := fun _ => rfl
    servoPosition := nofun
    queryPosition := fun _ => Nat.zero_le 3
    stallInQuery := fun hne => absurd hstall hne }

/-- Back to FDL from every link state: the timeout (R151). -/
theorem Inv.tmoHandler (h : Inv s) (hstall : s.stall = none) : Inv (tmoHandler s) := by
  rw [tmoHandler_eq]
  exact { h with
    armedIffHalfDuplex := by simp
    lineOfState := rfl
    cursors := ⟨Nat.le_refl 0, Nat.zero_le 8⟩
    bytesLeft := nofun
    responseLength := nofun
    huntingOutsideFdl := fun _ => rfl
    servoPosition := fun _ => Nat.zero_le 29
    queryPosition := nofun
    stallInQuery := fun hne => absurd hstall hne }

/-! ### Every event keeps the invariants -/

/-- Header, hunting, first byte of a pair, channel pair, wrong and right trailer (R121 to R126). -/
theorem Inv.rxServo (h : Inv s) (hstall : s.stall = none) (hls : s.ls = .fdl) (b : Byte) : Inv (rxServo b s) := by
  have hn := h.servoPosition hls
  rcases rxServo_cases b s with
    ⟨-, -, he⟩ | ⟨-, ⟨-, he⟩ | ⟨-, heven, he⟩ | ⟨-, hodd, hpair, he⟩ | ⟨-, -, -, -, he⟩ | ⟨-, -, -, -, he⟩⟩ <;> rw [he]
  · exact h.servoParser hstall hls (Nat.zero_le 29)
  · exact h.servoParser hstall hls hn
  · exact h.servoParser hstall hls (by omega)
  · exact h.servoParser hstall hls (by omega)
  · exact h.servoParser hstall hls (Nat.zero_le 29)
  · exact (h.servoParser hstall hls (Nat.zero_le 29)).servoAccept hstall hls

/-- A verified query is dropped, answered, stalled, or answered after one sample (R143 to R146). -/
theorem Inv.queryExec (h : Inv s) (hstall : s.stall = none) (hls : s.ls = .hdl) (hn : s.fa.n = 0) (c : Byte)
    (w : Word16) : Inv (queryExec c w s) := by
  rcases queryExec_cases c w s with
    ⟨e, -, he⟩ | ⟨-, bs, hlen, he⟩ | ⟨-, k, -, hchan, adc, draws, he | ⟨raw, hraw, bs, hlen, he⟩⟩ <;> rw [he]
  · exact h.queryParser hstall hls (h.queryPosition hls)
  · exact h.startTx_fill hstall hls (by omega)
  · exact h.stalled hls hn
  · exact (h.sample hchan hraw).startTx_fill hstall hls (.inr hlen)

/-- The four positions of a query, each byte accepted or dropped (R140 to R142). -/
theorem Inv.rxQuery (h : Inv s) (hstall : s.stall = none) (hls : s.ls = .hdl) (b : Byte) : Inv (rxQuery b s) := by
  rcases rxQuery_cases b s with
    ⟨-, -, he⟩ | ⟨-, -, he⟩ | ⟨-, he⟩ | ⟨-, he⟩ | ⟨-, -, he⟩ | ⟨-, -, he⟩ | ⟨-, he⟩ <;> rw [he]
  · exact h.queryParser hstall hls (by decide)
  · exact h.queryParser hstall hls (h.queryPosition hls)
  · exact h.queryParser hstall hls (by decide)
  · exact h.queryParser hstall hls (by decide)
  · have hparsed : Inv { s with fa := { s.fa with n := 0 } } := h.queryParser hstall hls (Nat.zero_le 3)
    exact hparsed.queryExec hstall hls rfl _ _
  · exact h.queryParser hstall hls (Nat.zero_le 3)
  · exact h

theorem Inv.rx (h : Inv s) (b : Byte) : Inv (rx b s) := by
  rcases rx_cases b s with he | ⟨hstall, -, hls, he⟩ | ⟨hstall, -, hls, he⟩ <;> rw [he]
  · exact h
  · exact h.rxServo hstall hls b
  · exact h.rxQuery hstall hls b

theorem Inv.txe {t : State} (h : Inv s) (hnext : txe s = .next t) : Inv t := by
  rcases txe_cases s with he | ⟨hstall, -, hls, ⟨-, he⟩ | ⟨_, he⟩⟩ <;> rw [he] at hnext <;> cases hnext
  · exact h
  · exact h.txeHandler hstall hls _

theorem Inv.tc (h : Inv s) : Inv (tc s) := by
  rcases tc_cases s with he | ⟨hstall, -, hls, he⟩ <;> rw [he]
  · exact h
  · exact h.tcHandler hstall hls

theorem Inv.tmo (h : Inv s) : Inv (tmo s) := by
  rcases tmo_cases s with he | ⟨hstall, -, he⟩ <;> rw [he]
  · exact h
  · exact h.tmoHandler hstall

/-! ### Every step keeps the invariants -/

/-- EV_RST establishes them anew; every other instruction is a sequence of events that keep them. -/
theorem Inv.exec {i : Instr} {t : State} (h : Inv s) (hnext : exec i s = .next t) : Inv t := by
  by_cases hi : i = .evRst
  · subst hi
    cases hnext
    exact (atReset_resetState s).inv h.cfgLegal
  · exact exec_induction (fun b _ hu => hu.rx b) (fun _ _ hu hv => hu.txe hv) (fun _ hu => hu.tc)
      (fun _ hu => hu.tmo) hi h hnext

theorem Inv.runUndecoded {c : Code} {t : State} (h : Inv s) (hnext : runUndecoded c s = .next t) : Inv t := by
  cases c with
  | event w => cases hnext; exact h
  | inbound bytes => cases hnext; exact rxAll_induction (fun b _ hu => hu.rx b) bytes h
  | outbound bytes => cases hnext; exact h

/-- Everything a step that answers a next state can have done: idled, run an instruction, or run an input that is none. -/
theorem step_cases {t : State} (hnext : step s = .next t) :
    t = s ∨ ∃ c rest, fetch s.inbox = some (c, rest) ∧
      ((∃ i, decode c = .ok i ∧ exec i { s with inbox := rest } = .next t) ∨
       (∃ e, decode c = .error e ∧ runUndecoded c { s with inbox := rest } = .next t)) := by
  unfold step at hnext
  by_cases hcfg : cfgOk s.cfg = true
  · rw [if_pos hcfg] at hnext
    cases hfetch : fetch s.inbox with
    | none =>
      rw [hfetch] at hnext
      cases hnext
      exact .inl rfl
    | some due =>
      obtain ⟨c, rest⟩ := due
      simp only [hfetch] at hnext
      cases hdecode : decode c with
      | ok i => exact .inr ⟨c, rest, rfl, .inl ⟨i, hdecode, by simpa only [hdecode] using hnext⟩⟩
      | error e => exact .inr ⟨c, rest, rfl, .inr ⟨e, hdecode, by simpa only [hdecode] using hnext⟩⟩
  · rw [if_neg hcfg] at hnext
    cases hnext

theorem Inv.step {t : State} (h : Inv s) (hnext : step s = .next t) : Inv t := by
  rcases step_cases hnext with rfl | ⟨c, rest, -, ⟨i, -, hrun⟩ | ⟨e, -, hrun⟩⟩
  · exact h
  · exact (h.withInbox rest).exec hrun
  · exact (h.withInbox rest).runUndecoded hrun

end Preservation

/-- Settles O9: a step idles, runs an instruction or runs an input that is none, and each keeps the invariants. -/
theorem stepKeepsInvariants : Obligations.StepKeepsInvariants := fun _ _ => Inv.step

end Sys2Proof.Machine

/-! ## Proofs: no run stops (20_memory)

The model has one fault, EV_TXE with `RB.pos` outside the buffer (R60), and one refusal, a configuration outside the
constraints of R6. The invariants exclude both: in HDT the cursor is below the response's length, which is at most 8 (I3),
and the configuration is legal. -/

namespace Sys2Proof.Machine

section Progress

variable {s : State}

/-! ### Every input answers a next state -/

/-- EV_TXE finds its byte in the buffer: it is sent in HDT only, where the cursor is inside the response (R60, I3). -/
theorem txe_answers (h : Inv s) : ∃ t, txe s = .next t := by
  rcases txe_cases s with he | ⟨-, -, hls, ⟨houtside, -⟩ | ⟨_, he⟩⟩
  · exact ⟨_, he⟩
  · have hleft := h.bytesLeft hls
    have hmax := h.cursors.2
    omega
  · exact ⟨_, he⟩

/-- A transmission goes on where its first EV_TXE leads (R85). -/
theorem drain_succ_of_txe {u : State} (n : Nat) (htxe : txe s = .next u) : drain (n + 1) s = drain n u := by
  simp only [drain, htxe]

/-- Each EV_TXE of a transmission keeps the invariants, on which the next one relies. -/
theorem drain_answers (n : Nat) (h : Inv s) : ∃ t, drain n s = .next t := by
  induction n generalizing s with
  | zero => exact ⟨_, rfl⟩
  | succ n ih =>
    obtain ⟨u, htxe⟩ := txe_answers h
    rw [drain_succ_of_txe n htxe]
    exact ih (h.txe htxe)

theorem transmit_answers (bytes : List Byte) (h : Inv s) : ∃ t, transmit bytes s = .next t := by
  unfold transmit
  split
  · exact drain_answers bytes.length h
  · exact ⟨s, rfl⟩

/-- Received bytes and the events other than EV_TXE answer from every state; EV_TXE and the responses need I3. -/
theorem exec_answers (i : Instr) (h : Inv s) : ∃ t, exec i s = .next t := by
  cases i with
  | servo pairs ck => exact ⟨_, rfl⟩
  | qProbe k ck => exact ⟨_, rfl⟩
  | qType k ck => exact ⟨_, rfl⟩
  | qValue k ck => exact ⟨_, rfl⟩
  | rProbe k ck => exact transmit_answers _ h
  | rType k t ck => exact transmit_answers _ h
  | rValue2 k v ck => exact transmit_answers _ h
  | rValue4 k v ck => exact transmit_answers _ h
  | evRst => exact ⟨_, rfl⟩
  | evRx b => exact ⟨_, rfl⟩
  | evTxe => exact txe_answers h
  | evTc => exact ⟨_, rfl⟩
  | evTmo => exact ⟨_, rfl⟩

/-- An input that is no row of the table stops nothing, in any state (R83, R210; notes/assumptions/15.md). -/
theorem runUndecoded_answers (c : Code) (s : State) : ∃ t, runUndecoded c s = .next t := by
  cases c with
  | event w => exact ⟨s, rfl⟩
  | inbound bytes => exact ⟨rxAll bytes s, rfl⟩
  | outbound bytes => exact ⟨s, rfl⟩

/-! ### The two steps that run no instruction -/

/-- With nothing due the block idles (R223). -/
theorem step_of_idle (hcfg : cfgOk s.cfg = true) (hfetch : fetch s.inbox = none) : step s = .next s := by
  simp only [step, hcfg, if_true, hfetch]

theorem step_of_undecoded {c : Code} {rest : List Slot} {e : DecodeError} (hcfg : cfgOk s.cfg = true)
    (hfetch : fetch s.inbox = some (c, rest)) (hdecode : decode c = .error e) :
    step s = runUndecoded c { s with inbox := rest } := by
  simp only [step, hcfg, if_true, hfetch, hdecode]

/-! ### Steps and runs -/

/-- From a state that meets the invariants, idling, running an instruction and running an input that is none all answer. -/
theorem step_answers (h : Inv s) : ∃ t, step s = .next t := by
  cases hfetch : fetch s.inbox with
  | none => exact ⟨s, step_of_idle h.cfgLegal hfetch⟩
  | some due =>
    obtain ⟨c, rest⟩ := due
    cases hdecode : decode c with
    | ok i =>
      rw [step_of_decoded h.cfgLegal hfetch hdecode]
      exact exec_answers i (h.withInbox rest)
    | error e =>
      rw [step_of_undecoded h.cfgLegal hfetch hdecode]
      exact runUndecoded_answers c _

/-- The invariants hold along every run. -/
theorem Inv.of_reaches {t : State} (h : Inv s) (hrun : Reaches s t) : Inv t := by
  induction hrun with
  | start => exact h
  | step _ hnext ih => exact ih.step hnext

end Progress

/-- Settles O10: the invariants hold along the run, and a state that meets them answers its next step. -/
theorem runsNeverStop : Obligations.RunsNeverStop := fun _ _ h hrun => step_answers (h.of_reaches hrun)

end Sys2Proof.Machine

/-! ## Proofs: the encoding of instructions (30_encoding)

The decoder undoes the encoder on every well-formed instruction, and the encoder undoes the decoder on every coded input
that decodes. -/

namespace Sys2Proof.Machine

/-! ### Byte and pair fields -/

/-- A byte pair travels as its two bytes (R51). -/
@[simp] theorem bytes16_pair (a b : Byte) : bytes16 (pair a b) = [a, b] := by
  simp [bytes16]

/-- A command byte is its nibble and its index (R75). -/
theorem cmdByte_of_cmdOp {c : Byte} {op : BitVec 4} (h : cmdOp c = op) : cmdByte op (cmdIndex c) = c :=
  h ▸ cmdByte_fields c

/-- Bytes that come in pairs are the bytes of their pairs (R72). -/
theorem pairBytes_pairsOf (n : Nat) (l : List Byte) (hl : l.length = 2 * n) : pairBytes (pairsOf l) = l := by
  induction n generalizing l with
  | zero => rw [List.eq_nil_of_length_eq_zero hl]; rfl
  | succ n ih =>
    match l with
    | a :: b :: rest =>
      have hrest : rest.length = 2 * n := by simp only [List.length_cons] at hl; omega
      simp [pairsOf, pairBytes, ih rest hrest]

theorem pairsOf_length (n : Nat) (l : List Byte) (hl : l.length = 2 * n) : (pairsOf l).length = n := by
  have h := congrArg List.length (pairBytes_pairsOf n l hl)
  rw [pairBytes_length] at h
  omega

/-! ### Decoding what the encoder wrote -/

/-- An event pattern decodes by its code and operand (R84). -/
theorem decodeEvent_eventWord (c : BitVec 3) (b : Byte) :
    decodeEvent (eventWord c b) =
      if c = 1 then .ok (.evRx b)
      else if 4 < c then .error .unusedEventCode
      else if b ≠ 0 then .error .strayOperand
      else if c = 0 then .ok .evRst
      else if c = 2 then .ok .evTxe
      else if c = 3 then .ok .evTc
      else .ok .evTmo := by
  simp only [decodeEvent, eventWord_code, eventWord_operand]

/-- A query decodes by its command nibble (R75). -/
theorem decodeInbound_queryBytes (op i : BitVec 4) (ck : Word16) :
    decodeInbound (queryBytes op i ck) =
      if op = Config.cmdProbe then .ok (.qProbe i ck)
      else if op = Config.cmdType then .ok (.qType i ck)
      else if op = Config.cmdValue then .ok (.qValue i ck)
      else .error .unknownInbound := by
  simp only [queryBytes, bytes16, decodeInbound, if_true, cmdOp_cmdByte, cmdIndex_cmdByte, pair_low_high]

/-- A header and 30 more bytes decode to a SERVO frame (R72). -/
theorem decodeInbound_header {body : List Byte} (hbody : body.length = 30) :
    decodeInbound (Config.hdr0 :: Config.hdr1 :: body) =
      .ok (.servo (pairsOf (body.take 28)) ((pairsOf (body.drop 28)).headD 0)) := by
  match body with
  | a :: b :: c :: rest => simp only [decodeInbound, hbody, and_self, if_true]

theorem decodeInbound_servoBytes {pairs : List Word16} (ck : Word16) (h : pairs.length = 14) :
    decodeInbound (servoBytes pairs ck) = .ok (.servo pairs ck) := by
  have hlen : (pairBytes pairs).length = 28 := by rw [pairBytes_length, h]
  rw [servoBytes, decodeInbound_header (by rw [List.length_append, hlen]; rfl), List.take_left' hlen,
    List.drop_left' hlen, pairsOf_pairBytes]
  simp [bytes16, pairsOf]

theorem decodeOutbound_probe (i : BitVec 4) (ck : Word16) :
    decodeOutbound (responseFrame Config.cmdProbe i [] ck) = .ok (.rProbe i ck) := by
  simp [responseFrame, bytes16, decodeOutbound]

theorem decodeOutbound_type (i : BitVec 4) (t ck : Word16) :
    decodeOutbound (responseFrame Config.cmdType i (bytes16 t) ck) = .ok (.rType i t ck) := by
  simp [responseFrame, bytes16, decodeOutbound]

theorem decodeOutbound_value2 (i : BitVec 4) (v ck : Word16) :
    decodeOutbound (responseFrame Config.cmdValue i (bytes16 v) ck) = .ok (.rValue2 i v ck) := by
  simp [responseFrame, bytes16, decodeOutbound, Config.cmdType, Config.cmdValue]

theorem decodeOutbound_value4 (i : BitVec 4) (v : Word32) (ck : Word16) :
    decodeOutbound (responseFrame Config.cmdValue i (bytes32 v) ck) = .ok (.rValue4 i v ck) := by
  simp [responseFrame, bytes16, bytes32, decodeOutbound]

/-- Settles O1: row by row, the decoder's tests find the row's length, command nibble or event code, and the fields come
back whole. -/
theorem decodeOfEncode : Obligations.DecodeOfEncode := by
  intro i hwf
  cases i with
  | servo pairs ck => exact decodeInbound_servoBytes ck (by simpa [Instr.wellFormed] using hwf)
  | qProbe i ck => exact decodeInbound_queryBytes Config.cmdProbe i ck
  | qType i ck => exact decodeInbound_queryBytes Config.cmdType i ck
  | qValue i ck => exact decodeInbound_queryBytes Config.cmdValue i ck
  | rProbe i ck => exact decodeOutbound_probe i ck
  | rType i t ck => exact decodeOutbound_type i t ck
  | rValue2 i v ck => exact decodeOutbound_value2 i v ck
  | rValue4 i v ck => exact decodeOutbound_value4 i v ck
  | evRst => exact decodeEvent_eventWord 0 0
  | evRx b => exact decodeEvent_eventWord 1 b
  | evTxe => exact decodeEvent_eventWord 2 0
  | evTc => exact decodeEvent_eventWord 3 0
  | evTmo => exact decodeEvent_eventWord 4 0

/-! ### Encoding what the decoder read -/

/-- An event pattern that decodes is the pattern of its event (R84). -/
theorem encode_of_decodeEvent {w : BitVec 11} {i : Instr} (h : decodeEvent w = .ok i) :
    encode i = .event w ∧ i.wellFormed = true := by
  rw [← eventWord_fields w] at h ⊢
  generalize w.extractLsb' 8 3 = c at h ⊢
  generalize w.extractLsb' 0 8 = b at h ⊢
  rw [decodeEvent_eventWord] at h
  by_cases hrx : c = 1
  · rw [if_pos hrx] at h
    cases h
    exact ⟨by rw [hrx]; rfl, rfl⟩
  by_cases hunused : 4 < c
  · rw [if_neg hrx, if_pos hunused] at h
    cases h
  by_cases hb : b = 0
  · have hcode : c = 0 ∨ c = 2 ∨ c = 3 ∨ c = 4 := by
      clear h; revert c; decide
    subst hb
    rcases hcode with rfl | rfl | rfl | rfl <;> cases h <;> exact ⟨rfl, rfl⟩
  · rw [if_neg hrx, if_neg hunused, if_pos hb] at h
    cases h

/-- The 30 bytes after a header are 14 pairs and a trailer (R72). -/
theorem servoBytes_pairsOf {body : List Byte} (hbody : body.length = 30) :
    servoBytes (pairsOf (body.take 28)) ((pairsOf (body.drop 28)).headD 0) = Config.hdr0 :: Config.hdr1 :: body := by
  have hpairs : pairBytes (pairsOf (body.take 28)) = body.take 28 := pairBytes_pairsOf 14 _ (by simp [hbody])
  obtain ⟨a, b, htrailer⟩ := List.length_eq_two.mp (show (body.drop 28).length = 2 by simp [hbody])
  have hbytes : bytes16 ((pairsOf (body.drop 28)).headD 0) = body.drop 28 := by simp [htrailer, pairsOf]
  rw [servoBytes, hpairs, hbytes, List.take_append_drop]

/-- A query's bytes from its fields (R75). -/
theorem queryBytes_of_fields {op : BitVec 4} {cmd : Byte} (hop : cmdOp cmd = op) (c0 c1 : Byte) :
    queryBytes op (cmdIndex cmd) (pair c0 c1) = [Config.qlen, cmd, c0, c1] := by
  rw [queryBytes, cmdByte_of_cmdOp hop, bytes16_pair]

/-- A response's bytes from its fields (R80). -/
theorem responseFrame_of_fields {op : BitVec 4} {cmd : Byte} (hop : cmdOp cmd = op) (val : List Byte) (c0 c1 : Byte) :
    responseFrame op (cmdIndex cmd) val (pair c0 c1) =
      BitVec.ofNat 8 (val.length + 4) :: cmd :: (val ++ [c0, c1]) := by
  rw [responseFrame, cmdByte_of_cmdOp hop, bytes16_pair]

/-- A test of the decoder that ends in an instruction succeeded, or a later one did. -/
theorem ite_ok_cases {c : Prop} [Decidable c] {x i : Instr} {r : Except DecodeError Instr}
    (h : (if c then .ok x else r) = .ok i) : c ∧ x = i ∨ r = .ok i := by
  by_cases hc : c
  · rw [if_pos hc] at h
    exact .inl ⟨hc, Except.ok.inj h⟩
  · rw [if_neg hc] at h
    exact .inr h

/-- Inbound bytes that decode are the frame of their instruction (R72, R75). -/
theorem encode_of_decodeInbound {bytes : List Byte} {i : Instr} (h : decodeInbound bytes = .ok i) :
    encode i = .inbound bytes ∧ i.wellFormed = true := by
  unfold decodeInbound at h
  split at h
  case h_1 len cmd c0 c1 =>
    split at h
    case isFalse => cases h
    case isTrue hlen =>
      subst hlen
      obtain ⟨hop, rfl⟩ | h := ite_ok_cases h
      · exact ⟨congrArg Code.inbound (queryBytes_of_fields hop c0 c1), rfl⟩
      obtain ⟨hop, rfl⟩ | h := ite_ok_cases h
      · exact ⟨congrArg Code.inbound (queryBytes_of_fields hop c0 c1), rfl⟩
      obtain ⟨hop, rfl⟩ | h := ite_ok_cases h
      · exact ⟨congrArg Code.inbound (queryBytes_of_fields hop c0 c1), rfl⟩
      cases h
  case h_2 h0 h1 body _ =>
    obtain ⟨⟨rfl, rfl, hbody⟩, rfl⟩ | h := ite_ok_cases h
    · have hpairs : (body.take 28).length = 2 * 14 := by simp [hbody]
      exact ⟨congrArg Code.inbound (servoBytes_pairsOf hbody),
        by simp [Instr.wellFormed, pairsOf_length 14 _ hpairs]⟩
    cases h
  case h_3 => cases h

/-- Outbound bytes that decode are the response of their instruction (R77 to R79). -/
theorem encode_of_decodeOutbound {bytes : List Byte} {i : Instr} (h : decodeOutbound bytes = .ok i) :
    encode i = .outbound bytes ∧ i.wellFormed = true := by
  unfold decodeOutbound at h
  split at h
  case h_1 len cmd c0 c1 =>
    obtain ⟨⟨rfl, hop⟩, rfl⟩ | h := ite_ok_cases h
    · exact ⟨congrArg Code.outbound (responseFrame_of_fields hop [] c0 c1), rfl⟩
    cases h
  case h_2 len cmd v0 v1 c0 c1 =>
    obtain ⟨⟨rfl, hop⟩, rfl⟩ | h := ite_ok_cases h
    · exact ⟨by rw [encode, bytes16_pair, responseFrame_of_fields hop]; rfl, rfl⟩
    obtain ⟨⟨rfl, hop⟩, rfl⟩ | h := ite_ok_cases h
    · exact ⟨by rw [encode, bytes16_pair, responseFrame_of_fields hop]; rfl, rfl⟩
    cases h
  case h_3 len cmd v0 v1 v2 v3 c0 c1 =>
    obtain ⟨⟨rfl, hop⟩, rfl⟩ | h := ite_ok_cases h
    · exact ⟨by rw [encode, bytes32_word32Of, responseFrame_of_fields hop]; rfl, rfl⟩
    cases h
  case h_4 => cases h

/-- Settles O2: in each of the three coded forms, the fields of what decodes put together again are the input. -/
theorem encodeOfDecode : Obligations.EncodeOfDecode := by
  intro c i h
  cases c with
  | event w => exact encode_of_decodeEvent h
  | inbound bytes => exact encode_of_decodeInbound h
  | outbound bytes => exact encode_of_decodeOutbound h

/-! ### Words written out from the table -/

/-- A table word whose coded input is an instruction's encoding stands for that instruction. -/
theorem decodeTableWord_of_encode {nbits w : Nat} {i : Instr} (hwf : i.wellFormed = true)
    (hcode : codeOfWord nbits w = encode i) : decodeTableWord nbits w = some i :=
  decodeTableWord_eq_some.mpr (hcode ▸ decodeOfEncode i hwf)

/-- Settles O3: each word is the encoding of its instruction, which decodes to it by O1; the last two do not decode. -/
theorem tableWordsDecode : Obligations.TableWordsDecode := by
  refine ⟨?_, ?_, ?_, ?_, ?_, ?_, ?_, ?_, ?_, ?_, ?_, ?_, ?_, ?_, ?_⟩
  case refine_8 => exact decodeOfEncode (.rProbe 1 0xFF7A) rfl
  case refine_14 => rfl
  case refine_15 => rfl
  all_goals exact decodeTableWord_of_encode rfl (by decide)

end Sys2Proof.Machine

/-! ## Proofs: what goes on the wire (30_encoding R77 to R80, R86)

What each event puts on the wire, how a pending response goes out byte by byte, and a query with its answer from end to
end. -/

namespace Sys2Proof.Machine

/-! ### The wire symbols of each event (R86) -/

/-- What is appended to the trace is appended to the wire, as far as it is a wire symbol (R11). -/
theorem wireOut_of_io {s t : State} {ops : List IoOp} (h : t.io = s.io ++ ops) :
    t.wireOut = s.wireOut ++ ops.filterMap IoOp.wire? := by
  rw [State.wireOut, State.wireOut, h, List.filterMap_append]

/-- A change that leaves the trace as it is puts nothing on the wire. -/
theorem wireOut_congr {s t : State} (h : t.io = s.io) : t.wireOut = s.wireOut :=
  congrArg (List.filterMap IoOp.wire?) h

/-- An accepted SERVO frame kicks and arms, but sends nothing (R126). -/
theorem servoAccept_wireOut (s : State) : (servoAccept s).wireOut = s.wireOut := by
  rw [servoAccept_eq, wireOut_of_io rfl]
  simp

/-- Every byte received in FDL leaves the wire and the response buffer as they are (R121 to R126). -/
theorem rxServo_wire (b : Byte) (s : State) : (rxServo b s).wireOut = s.wireOut ∧ (rxServo b s).rb = s.rb := by
  rcases rxServo_cases b s with
    ⟨-, -, h⟩ | ⟨-, ⟨-, h⟩ | ⟨-, -, h⟩ | ⟨-, -, -, h⟩ | ⟨-, -, -, -, h⟩ | ⟨-, -, -, -, h⟩⟩ <;> rw [h]
  case inr.inr.inr.inr.inr => exact ⟨servoAccept_wireOut _, by rw [servoAccept_eq]⟩
  all_goals exact ⟨rfl, rfl⟩

/-- `StartTx()` puts one IDLE on the wire (R86, R148). -/
theorem startTx_wireOut (s : State) : (startTx s).wireOut = s.wireOut ++ [.idle] := by
  rw [startTx_eq, wireOut_of_io rfl]
  rfl

/-- A verified query sends nothing, or starts an answer with its IDLE (R143 to R148). -/
theorem queryExec_wire (c : Byte) (w : Word16) (s : State) :
    ((queryExec c w s).wireOut = s.wireOut ∧ (queryExec c w s).rb = s.rb) ∨
    ((queryExec c w s).wireOut = s.wireOut ++ [.idle] ∧ (queryExec c w s).ls = .hdt ∧ (queryExec c w s).rb.pos = 0) := by
  rcases queryExec_cases c w s with
    ⟨e, -, h⟩ | ⟨-, bs, -, h⟩ | ⟨-, k, -, -, adc, draws, h | ⟨raw, -, bs, -, h⟩⟩ <;> rw [h]
  · exact .inl ⟨rfl, rfl⟩
  · exact .inr ⟨startTx_wireOut _, by rw [startTx_eq], by rw [startTx_eq]⟩
  · exact .inl ⟨by rw [wireOut_of_io rfl]; simp, rfl⟩
  · refine .inr ⟨?_, by rw [startTx_eq], by rw [startTx_eq]⟩
    rw [startTx_wireOut, wireOut_congr (fillResponse_io bs _), wireOut_of_io rfl]
    simp

/-- A byte received in HDL sends nothing, unless it ends a query that is answered (R140 to R143). -/
theorem rxQuery_wire (b : Byte) (s : State) :
    ((rxQuery b s).wireOut = s.wireOut ∧ (rxQuery b s).rb = s.rb) ∨
    ((rxQuery b s).wireOut = s.wireOut ++ [.idle] ∧ (rxQuery b s).ls = .hdt ∧ (rxQuery b s).rb.pos = 0) := by
  rcases rxQuery_cases b s with
    ⟨-, -, h⟩ | ⟨-, -, h⟩ | ⟨-, h⟩ | ⟨-, h⟩ | ⟨-, -, h⟩ | ⟨-, -, h⟩ | ⟨-, h⟩ <;> rw [h]
  case inr.inr.inr.inr.inl => exact queryExec_wire s.qcmd s.fa.ck { s with fa := { s.fa with n := 0 } }
  all_goals exact .inl ⟨rfl, rfl⟩

theorem rx_wire (b : Byte) (s : State) :
    ((rx b s).wireOut = s.wireOut ∧ (rx b s).rb = s.rb) ∨
    ((rx b s).wireOut = s.wireOut ++ [.idle] ∧ s.ls = .hdl ∧ (rx b s).ls = .hdt ∧ (rx b s).rb.pos = 0) := by
  rcases rx_cases b s with h | ⟨-, -, -, h⟩ | ⟨-, -, hls, h⟩ <;> rw [h]
  · exact .inl ⟨rfl, rfl⟩
  · exact .inl (rxServo_wire b s)
  · exact (rxQuery_wire b s).imp_right fun ⟨hwire, hhdt⟩ => ⟨hwire, hls, hhdt⟩

/-- EV_TXE's handler sends its byte and moves the cursor (R149). -/
theorem txeHandler_wire (b : Byte) (s : State) :
    (txeHandler b s).wireOut = s.wireOut ++ [.byte b] ∧ (txeHandler b s).rb = { s.rb with pos := s.rb.pos + 1 } := by
  rw [txeHandler_eq]
  split <;> exact ⟨by rw [wireOut_of_io rfl]; rfl, rfl⟩

theorem tc_wireOut (s : State) : (tc s).wireOut = s.wireOut := by
  rcases tc_cases s with h | ⟨-, -, -, h⟩ <;> rw [h]
  rw [tcHandler_eq, wireOut_of_io rfl]
  simp

theorem tmo_wireOut (s : State) : (tmo s).wireOut = s.wireOut := by
  rcases tmo_cases s with h | ⟨-, -, h⟩ <;> rw [h]
  rw [tmoHandler_eq, wireOut_of_io rfl]
  simp

/-- Settles O19: event by event, from what each handler appends to the trace. -/
theorem wireSymbolsByEvent : Obligations.WireSymbolsByEvent := by
  refine ⟨fun b s t h => ?_, fun s t h => ?_, fun i s t hi h => ?_⟩
  · cases h
    exact rx_wire b s
  · rcases txe_cases s with he | ⟨-, -, -, ⟨-, he⟩ | ⟨hpos, he⟩⟩ <;> cases he.symm.trans h
    · exact .inl rfl
    · obtain ⟨hwire, hrb⟩ := txeHandler_wire s.rb.data[s.rb.pos] s
      exact .inr ⟨hpos, hwire, by rw [hrb], by rw [hrb], by rw [hrb]⟩
  · rcases hi with rfl | rfl <;> cases h
    · exact tc_wireOut s
    · exact tmo_wireOut s

/-! ### A response goes out whole (R149, R150) -/

/-- The rest of a response, `bytes`, is still to be sent from `RB.pos` on (R149). -/
structure Sending (bytes : List Byte) (s : State) : Prop where
  notStalled : s.stall = none
  transmitting : s.ls = .hdt
  line : s.linectl = lineRow .hdt
  bytesLeft : s.rb.len = s.rb.pos + bytes.length
  buffered : bytes <+: s.rb.data.toList.drop s.rb.pos

/-- A response none of which is sent is being sent from its first byte on. -/
theorem HoldsResponse.sending {bytes : List Byte} {s : State} (h : HoldsResponse bytes s) : Sending bytes s := by
  obtain ⟨hstall, hls, hline, hpos, hlen, hdata⟩ := h
  refine ⟨hstall, hls, hline, by omega, ?_⟩
  rw [hpos, List.drop_zero, ← hdata]
  exact ⟨_, List.take_append_drop _ _⟩

/-- EV_TXE pushes the first byte of what is still to be sent (R149). -/
theorem Sending.txe {b : Byte} {bs : List Byte} {s : State} (h : Sending (b :: bs) s) :
    txe s = .next (txeHandler b s) := by
  have hbyte : s.rb.data[s.rb.pos]? = some b := by
    obtain ⟨rest, hrest⟩ := h.buffered
    have hfirst := congrArg (·[0]?) hrest
    simpa using hfirst.symm
  have hen : (lineRow .hdt).txeie = true := rfl
  simp [Machine.txe, idle, txeEnabled, h.notStalled, h.transmitting, h.line, hen, hbyte]

theorem Sending.tail {b : Byte} {bs : List Byte} {s : State} (h : Sending (b :: bs) s) :
    Sending bs { s with rb := { s.rb with pos := s.rb.pos + 1 }, io := s.io ++ [.byte b] } where
  notStalled := h.notStalled
  transmitting := h.transmitting
  line := h.line
  bytesLeft := by simp only [h.bytesLeft, List.length_cons]; omega
  buffered := by
    obtain ⟨rest, hrest⟩ := h.buffered
    exact ⟨rest, by simpa using congrArg List.tail hrest⟩

/-- The last byte of a response and the EV_TC after it (R149, R150). -/
theorem drain_last {b : Byte} {s : State} (h : Sending [b] s) :
    drain 1 s = .next { sent [b] s with rb := { s.rb with pos := s.rb.len } } := by
  have hlast : s.rb.pos + 1 = s.rb.len := h.bytesLeft.symm
  rw [drain_succ_of_txe 0 h.txe, txeHandler_eq, if_pos hlast, h.line]
  simp [drain, tc, idle, tcEnabled, h.notStalled, tcHandler_eq, sent, turnback, lineRow, hlast]

/-- What is still to be sent goes out in order, and the link listens again. -/
theorem drain_of_sending {b : Byte} {bs : List Byte} {s : State} (h : Sending (b :: bs) s) :
    drain (b :: bs).length s = .next { sent (b :: bs) s with rb := { s.rb with pos := s.rb.len } } := by
  induction bs generalizing b s with
  | nil => exact drain_last h
  | cons b' bs ih =>
    have hmore : s.rb.pos + 1 ≠ s.rb.len := by rw [h.bytesLeft]; simp
    rw [List.length_cons, drain_succ_of_txe _ h.txe, txeHandler_eq, if_neg hmore, ih h.tail]
    simp [sent]

/-- Each of the reasons against it keeps a response from being the pending one. -/
theorem isPending_eq_false {bytes : List Byte} {s : State} (h : NotPending bytes s) : isPending bytes s = false := by
  rcases h with h | h | h | h <;> simp [isPending, idle, pendingResponse, h]

theorem HoldsResponse.isPending {bytes : List Byte} {s : State} (h : HoldsResponse bytes s) :
    isPending bytes s = true := by
  obtain ⟨hstall, hls, -, hpos, hlen, hdata⟩ := h
  simp [Machine.isPending, idle, pendingResponse, hstall, hls, hpos, hlen, hdata]

/-- The block sends the response it holds. -/
theorem transmit_of_holdsResponse {bytes : List Byte} {s : State} (hne : bytes ≠ []) (h : HoldsResponse bytes s) :
    transmit bytes s = .next (sent bytes s) := by
  obtain ⟨b, bs, rfl⟩ := List.exists_cons_of_ne_nil hne
  have hsent := drain_of_sending h.sending
  rw [transmit, if_pos h.isPending, hsent]
  obtain ⟨-, -, -, -, hlen, -⟩ := h
  rw [hlen]
  rfl

/-- It sends no other. -/
theorem transmit_of_notPending {bytes : List Byte} {s : State} (h : NotPending bytes s) :
    transmit bytes s = .next s := by
  rw [transmit, if_neg (by simp [isPending_eq_false h])]

/-- Settles O41: the four response rows are `transmit` of their frame. -/
theorem responseTransmitted : Obligations.ResponseTransmitted := by
  intro s i ck
  refine ⟨?_, fun t => ?_, fun v => ?_, fun v => ?_⟩ <;> rintro _ rfl <;>
    exact ⟨transmit_of_holdsResponse (List.cons_ne_nil _ _), transmit_of_notPending⟩

end Sys2Proof.Machine

/-! ## Proofs: a query and its answer (30_encoding R75 to R80)

A query that is answered, and the transmission of its answer, from the listening state back to it. -/

namespace Sys2Proof.Machine

/-! ### The answer is what the response row sends -/

/-- The buffer holds the response it has been filled with (R147). -/
theorem take_buffer {bytes : List Byte} (data : Vector Byte 8) (hlen : bytes.length ≤ 8) :
    (Vector.ofFn fun j : Fin 8 => bytes.getD j.val data[j]).toList.take bytes.length = bytes := by
  refine List.ext_getElem (by simpa using hlen) fun j _ hj => ?_
  simp [hj]

/-- An answered query holds its response, none of it sent (R147, R148). -/
theorem holdsResponse_answered {bytes : List Byte} {s : State} (hlen : bytes.length ≤ 8) (hstall : s.stall = none) :
    HoldsResponse bytes (answered bytes s) :=
  ⟨hstall, rfl, rfl, rfl, rfl, take_buffer s.rb.data hlen⟩

/-- The whole answer goes out on the wire after the IDLE (R86, R148 to R150). -/
theorem wireOut_sent_answered (bytes : List Byte) (s : State) :
    (sent bytes (answered bytes s)).wireOut = s.wireOut ++ .idle :: bytes.map .byte := by
  have hbytes : (bytes.map IoOp.byte).filterMap IoOp.wire? = bytes.map .byte := by
    induction bytes with
    | nil => rfl
    | cons b bs ih => rw [List.map_cons, List.filterMap_cons, byte_wire, ih, List.map_cons]
  have hio : (sent bytes (answered bytes s)).io = s.io ++ (turnaround ++ (bytes.map .byte ++ turnback)) :=
    List.append_assoc _ _ _
  rw [wireOut_of_io hio, List.filterMap_append, List.filterMap_append, hbytes]
  simp [turnaround, turnback, List.filterMap_cons]

/-! ### Executing a verified query (R143) -/

section Query

variable {c : Byte} {w : Word16} {s : State}

theorem queryExec_probe (hi : cmdIndex c ≠ 0) (hsensor : sensorType s.cfg ((cmdIndex c).toNat - 1) ≠ 0)
    (hop : cmdOp c = Config.cmdProbe) : queryExec c w s = startTx (probe c w s) := by
  rw [queryExec, if_neg (index_ne_zero hi)]
  simp only [if_neg hsensor, if_pos hop]

theorem queryExec_type (hi : cmdIndex c ≠ 0) (hsensor : sensorType s.cfg ((cmdIndex c).toNat - 1) ≠ 0)
    (hop : cmdOp c = Config.cmdType) :
    queryExec c w s = startTx (typeQuery c (sensorType s.cfg ((cmdIndex c).toNat - 1)) s) := by
  have hprobe : cmdOp c ≠ Config.cmdProbe := by rw [hop]; decide
  rw [queryExec, if_neg (index_ne_zero hi)]
  simp only [if_neg hsensor, if_neg hprobe, if_pos hop]

theorem queryExec_value {k : Fin 3} (hi : (cmdIndex c).toNat = k.val + 1) (hsensor : sensorType s.cfg k.val ≠ 0)
    (hop : cmdOp c = Config.cmdValue) : queryExec c w s = valueQuery c k (sensorType s.cfg k.val) s := by
  have hprobe : cmdOp c ≠ Config.cmdProbe := by rw [hop]; decide
  have htype : cmdOp c ≠ Config.cmdType := by rw [hop]; decide
  have hk : (cmdIndex c).toNat - 1 = k.val := by omega
  have hfin : Fin.ofNat 3 k.val = k := Fin.ext (fin_of_index k.isLt)
  rw [queryExec, if_neg (by omega)]
  simp only [hk, hfin, if_neg hsensor, if_neg hprobe, if_neg htype, if_pos hop]

/-- A Value query of a declared width of 2 or 4 whose acquisition returns is answered with the value (R146). -/
theorem valueQuery_of_value {k : Fin 3} {t : Word16} {s1 : State} {v : Word32}
    (hwidth : typeWidth t = 2 ∨ typeWidth t = 4) (hvalue : sensorValue k s = (.value v, s1)) :
    valueQuery c k t s = startTx (fillResponse (responseBytes c (valueBytes (typeWidth t) v)) s1) := by
  rw [valueQuery, if_pos hwidth, hvalue]
  rfl

end Query

/-! ### The query rows, answered -/

/-- What an acquisition leaves, whatever it answers (R102). -/
theorem adcRead_state {chan : Nat} {s s1 : State} {r : Option Nat} (h : adcRead chan s = (r, s1)) :
    ∃ adc draws, s1 = { s with io := s.io ++ [.adc chan], adc := adc, draws := draws } := by
  simpa only [h] using adcRead_frame chan s

section Answered

variable {s : State} {i : BitVec 4}

theorem ListensForQuery.notStalled (h : ListensForQuery s) : s.stall = none := by
  obtain ⟨hstall, -⟩ := h
  exact hstall

theorem ListensForQuery.line (h : ListensForQuery s) : s.linectl = lineRow .hdl := by
  obtain ⟨-, -, hline, -⟩ := h
  exact hline

/-- A query with the right trailer is executed on the parsed state (R142). -/
theorem rxAll_verified (op : BitVec 4) (h : ListensForQuery s) :
    rxAll (queryBytes op i (queryChecksum op i)) s =
      queryExec (cmdByte op i) (queryChecksum op i) (queryParsed (cmdByte op i) (lowByte (queryChecksum op i)) s) := by
  rw [rxAll_query op i _ s h, if_pos rfl]

/-- The bytes of a verified Probe query are its answer (R144). -/
theorem exec_qProbe_answered (h : ListensForQuery s) (hi : i ≠ 0) (hsensor : sensorType s.cfg (i.toNat - 1) ≠ 0) :
    exec (.qProbe i (queryChecksum 0x8 i)) s =
      .next (answered (queryBytes 0x8 i (queryChecksum 0x8 i))
        (queryParsed (cmdByte 0x8 i) (lowByte (queryChecksum 0x8 i)) s)) := by
  refine congrArg Host.Outcome.next ((rxAll_verified 0x8 h).trans ?_)
  rw [queryExec_probe (by simpa using hi) (by simpa using hsensor) (cmdOp_cmdByte 0x8 i)]
  exact startTx_fill_answered _ h.line

/-- The answer to a verified Type query is the sensor's type code (R145). -/
theorem exec_qType_answered (h : ListensForQuery s) (hi : i ≠ 0) (hsensor : sensorType s.cfg (i.toNat - 1) ≠ 0) :
    exec (.qType i (queryChecksum 0x9 i)) s =
      .next (answered (responseBytes (cmdByte 0x9 i) (bytes16 (sensorType s.cfg (i.toNat - 1))))
        (queryParsed (cmdByte 0x9 i) (lowByte (queryChecksum 0x9 i)) s)) := by
  refine congrArg Host.Outcome.next ((rxAll_verified 0x9 h).trans ?_)
  rw [queryExec_type (by simpa using hi) (by simpa using hsensor) (cmdOp_cmdByte 0x9 i), cmdIndex_cmdByte]
  exact startTx_fill_answered _ h.line

/-- The answer to a verified Value query is the converted reading in the declared width, after one acquisition and one
sample (R101, R146). -/
theorem exec_qValue_answered {s1 : State} {k : Fin 3} {raw : Nat} (h : ListensForQuery s) (hi : i.toNat = k.val + 1)
    (hsensor : sensorType s.cfg k.val ≠ 0) (hacq : adcRead s.cfg.reg[k].chan s = (some raw, s1))
    (hwidth : typeWidth (sensorType s.cfg k.val) = 2 ∨ typeWidth (sensorType s.cfg k.val) = 4) :
    exec (.qValue i (queryChecksum 0xA i)) s =
      .next (answered
        (responseBytes (cmdByte 0xA i) (valueBytes (typeWidth (sensorType s.cfg k.val))
          (convert s.cfg.conv[k] (filterReport (filterNext s.filt[k] raw)))))
        (queryParsed (cmdByte 0xA i) (lowByte (queryChecksum 0xA i))
          { s1 with filt := s.filt.set k (filterNext s.filt[k] raw) })) := by
  obtain ⟨_, hchan, -⟩ := sensorType_ne_zero hsensor
  have hline1 : s1.linectl = lineRow .hdl := by
    obtain ⟨adc, draws, rfl⟩ := adcRead_state hacq
    exact h.line
  have hparsed := adcRead_queryParsed s.cfg.reg[k].chan (cmdByte 0xA i) (lowByte (queryChecksum 0xA i)) s
  rw [hacq] at hparsed
  refine congrArg Host.Outcome.next ((rxAll_verified 0xA h).trans ?_)
  rw [queryExec_value (s := queryParsed _ _ s) (by simpa using hi) hsensor (cmdOp_cmdByte 0xA i), queryParsed_cfg,
    valueQuery_of_value hwidth (sensorValue_of_value (s := queryParsed _ _ s) hchan hparsed)]
  exact startTx_fill_answered _ hline1

end Answered

/-! ### Query and answer, end to end -/

/-- When the query `i` is answered with `bytes`, the response row sends them, and the link listens again with the outputs,
the filters and the timer as the query `q` has left them (R148 to R150). -/
theorem exchange_of_answered {i : Instr} {s q : State} {bytes : List Byte} (hquery : exec i s = .next (answered bytes q))
    (hne : bytes ≠ []) (hlen : bytes.length ≤ 8) (hstall : q.stall = none) :
    ∃ p u, exec i s = .next p ∧ transmit bytes p = .next u ∧ u.wireOut = q.wireOut ++ .idle :: bytes.map .byte ∧
      u.ls = .hdl ∧ u.linectl = lineRow .hdl ∧ SameActuators q u ∧ u.filt = q.filt ∧ u.tmrArmed = q.tmrArmed :=
  ⟨_, _, hquery, transmit_of_holdsResponse hne (holdsResponse_answered hlen hstall), wireOut_sent_answered bytes q, rfl,
    rfl, ⟨rfl, rfl, rfl, rfl, rfl, rfl⟩, rfl, rfl⟩

/-- Settles O42: the query's bytes are the pending response, and R.PROBE sends them. -/
theorem probeExchange : Obligations.ProbeExchange := by
  intro s i h hi hsensor
  have hlen : (queryBytes 0x8 i (queryChecksum 0x8 i)).length ≤ 8 := by simp [queryBytes, bytes16]
  exact exchange_of_answered (q := queryParsed _ _ s) (exec_qProbe_answered h hi hsensor) (List.cons_ne_nil _ _)
    hlen h.notStalled

/-- Settles O43: the six bytes with the type code are the pending response, and R.TYPE sends them. -/
theorem typeExchange : Obligations.TypeExchange := by
  intro s i h hi hsensor
  have hlen : (responseBytes (cmdByte 0x9 i) (bytes16 (sensorType s.cfg (i.toNat - 1)))).length ≤ 8 := by
    simp [bytes16]
  exact exchange_of_answered (q := queryParsed _ _ s) (exec_qType_answered h hi hsensor) (List.cons_ne_nil _ _)
    hlen h.notStalled

/-- The answer to a verified Value query, `bytes`, goes out whole and leaves one sample in the sensor's filter (R146,
R149). -/
theorem exchange_of_qValue {s s1 : State} {k : Fin 3} {i : BitVec 4} {raw : Nat} {bytes : List Byte}
    (h : ListensForQuery s) (hi : i.toNat = k.val + 1) (hsensor : sensorType s.cfg k.val ≠ 0)
    (hacq : adcRead s.cfg.reg[k].chan s = (some raw, s1))
    (hwidth : typeWidth (sensorType s.cfg k.val) = 2 ∨ typeWidth (sensorType s.cfg k.val) = 4)
    (hbytes : responseBytes (cmdByte 0xA i) (valueBytes (typeWidth (sensorType s.cfg k.val))
      (convert s.cfg.conv[k] (filterReport (filterNext s.filt[k] raw)))) = bytes) :
    ∃ p u, exec (.qValue i (queryChecksum 0xA i)) s = .next p ∧ transmit bytes p = .next u ∧
      u.wireOut = s.wireOut ++ .idle :: bytes.map .byte ∧
      u.ls = .hdl ∧ SameActuators s u ∧ u.filt = s.filt.set k (filterNext s.filt[k] raw) := by
  have hquery := exec_qValue_answered h hi hsensor hacq hwidth
  rw [hbytes] at hquery
  have hlength : bytes.length = (typeWidth (sensorType s.cfg k.val)).toNat + 4 := by
    rw [← hbytes, responseBytes_length, valueBytes_length hwidth]
  have hlen : bytes.length ≤ 8 := by
    rcases hwidth with hw | hw <;> rw [hlength, hw] <;> decide
  have hne : bytes ≠ [] := List.ne_nil_of_length_pos (by omega)
  obtain ⟨adc, draws, rfl⟩ := adcRead_state hacq
  obtain ⟨p, u, hp, hsend, hwire, hls, -, hact, hfilt, -⟩ := exchange_of_answered hquery hne hlen h.notStalled
  refine ⟨p, u, hp, hsend, hwire.trans ?_, hls, hact, hfilt⟩
  rw [wireOut_of_io (s := s) rfl]
  simp

/-- Settles O44: in either width, the response row's frame is the answer that is pending. -/
theorem valueExchange : Obligations.ValueExchange := by
  intro s s1 k i raw h hi hsensor hacq
  refine ⟨fun hw => ?_, fun hw => ?_⟩
  · have hlow := bytes16_setWidth (convert s.cfg.conv[k] (filterReport (filterNext s.filt[k] raw)))
    simp only [exec, execRValue2, responseFrame, hlow]
    exact exchange_of_qValue h hi hsensor hacq (.inl hw) (by rw [hw, valueBytes, if_pos rfl, hlow]; rfl)
  · exact exchange_of_qValue h hi hsensor hacq (.inr hw) (by rw [hw]; rfl)

end Sys2Proof.Machine

/-! ## Proofs: the sensors and their filters (40_sensor)

The registry, one acquisition, the filter's arithmetic and its convergence, the conversion, and when a filter is sampled:
only by a verified Value query, which is answered in the declared width or stalls. -/

namespace Sys2Proof.Machine

/-! ### The registry and the acquisition peripheral (R100, R102) -/

/-- Settles O49: `sensorType` by its two tests, the range and the channel. -/
theorem sensorTypeLookup : Obligations.SensorTypeLookup := by
  intro cfg k
  refine ⟨fun hout => dif_neg (by simpa using hout), fun hk => ⟨fun habsent => ?_, fun hchan => ?_⟩⟩
  · rw [sensorType, dif_pos hk, if_pos habsent]
  · rw [sensorType, dif_pos hk, if_neg hchan]

/-- Settles O40: the answer is the head of the script, or a draw when the script is empty. -/
theorem adcReadAnswers : Obligations.AdcReadAnswers := by
  intro s chan
  refine ⟨fun raw rest hscript => ?_, fun rest hscript => ?_, fun hscript => ?_⟩
  · simp only [adcRead, nextReply, emit, hscript]
  · simp only [adcRead, nextReply, emit, hscript]
  · simp only [adcRead, nextReply, emit, hscript]
    cases Config.adcDraw s.draws <;> rfl

/-! ### The filter and the conversion as numbers (R103, R105) -/

/-- The report drops the accumulator's 7 bits of extra precision (R103). -/
theorem filterReport_eq (f : Filter) : filterReport f = f.acc.toNat / 128 := by
  simp only [filterReport, Config.fshift, BitVec.toNat_ushiftRight, Nat.shiftRight_eq_div_pow]

/-- The seeding sample is reported exactly (R103). -/
theorem filterReport_filterNext_of_unseeded {f : Filter} {raw : Nat} (hf : f.seeded = false) (hraw : raw < 2 ^ 24) :
    filterReport (filterNext f raw) = raw := by
  rw [filterReport_eq, filterNext_acc_of_unseeded hf hraw, Nat.mul_div_cancel raw (by decide)]

/-- The product of a reading lies between those of the least and the greatest reading, whatever the sign of the factor. -/
theorem scaled_between {f top mul : Int} (hf : 0 ≤ f) (htop : f ≤ top) :
    min 0 (top * mul) ≤ f * mul ∧ f * mul ≤ max 0 (top * mul) := by
  rcases le_total 0 mul with hmul | hmul
  · have hlow := mul_nonneg hf hmul
    have hhigh := mul_le_mul_of_nonneg_right htop hmul
    omega
  · have hhigh := mul_nonpos_of_nonneg_of_nonpos hf hmul
    have hlow := mul_le_mul_of_nonpos_right htop hmul
    omega

/-- A linear conversion that fits signed 32 bits at the least and the greatest reading fits at every one (R6). -/
theorem convValue_fits {bits f : Nat} {mul off : Int} (hfits : convFits bits (.scaled mul off) = true)
    (hf : f < 2 ^ bits) :
    -2147483648 ≤ convValue (.scaled mul off) f ∧ convValue (.scaled mul off) f ≤ 2147483647 := by
  simp only [convFits, Bool.and_eq_true, decide_eq_true_eq] at hfits
  obtain ⟨⟨-, hleast⟩, hgreatest⟩ := hfits
  have hreading : (f : Int) ≤ 2 ^ bits - 1 := by
    have : (f : Int) < 2 ^ bits := by exact_mod_cast hf
    omega
  have hbetween := scaled_between (mul := mul) (Int.natCast_nonneg f) hreading
  simp only [convValue]
  omega

/-- A linear conversion's 32-bit result is its value (R105). -/
theorem convert_scaled_toInt {bits f : Nat} {mul off : Int} (hfits : convFits bits (.scaled mul off) = true)
    (hf : f < 2 ^ bits) : (convert (.scaled mul off) f).toInt = f * mul / 4096 - off := by
  obtain ⟨hlow, hhigh⟩ := convValue_fits hfits hf
  exact BitVec.toInt_ofInt_eq_self (by decide) (by omega) (by omega)

/-- A table conversion's result is the entry of the reading (R105). -/
theorem convert_table {values : List Word32} {f : Nat} (h : f < values.length) :
    convert (.table values) f = values[f] := by
  rw [convert, convValue, BitVec.ofInt_toInt, List.getD_eq_getElem _ _ h]

/-- Settles O50: the seed, the later samples and the two forms of the conversion. -/
theorem filterAndConversionExact : Obligations.FilterAndConversionExact := by
  refine ⟨fun f raw hraw => ⟨filterNext_seeded f raw, filterReport_eq _, fun hf => ?_, fun hf hacc => ?_⟩,
    fun _ _ _ _ => convert_scaled_toInt, fun _ _ => convert_table⟩
  · exact ⟨filterNext_acc_of_unseeded hf hraw, filterReport_filterNext_of_unseeded hf hraw⟩
  · exact filterNext_acc_of_seeded hf hraw hacc

/-- Settles O51: one sample, seeding or not, keeps the bound. -/
theorem filterStaysInRange : Obligations.FilterStaysInRange :=
  fun _ _ _ => filterNext_acc_lt

/-! ### Convergence to a constant reading (R104 b to d)

Every accumulator from `128 * raw` to `128 * raw + 127` reports `raw`. `filterGap` is the distance from there; a sample
brings it down by at least one and crosses to the other side never. -/

/-- How far the accumulator is from the values that report `raw`. -/
def filterGap (f : Filter) (raw : Nat) : Nat :=
  (128 * raw - f.acc.toNat) + (f.acc.toNat - (128 * raw + 127))

theorem filterGap_eq_zero_iff (f : Filter) (raw : Nat) : filterGap f raw = 0 ↔ filterReport f = raw := by
  rw [filterReport_eq]
  unfold filterGap
  omega

/-- A seeded filter whose 32-bit arithmetic does not wrap: the accumulator fits `24 + 7` bits (R104 e). -/
structure FilterReady (f : Filter) : Prop where
  seeded : f.seeded = true
  acc : f.acc.toNat < 2 ^ 31

section Convergence

variable {f : Filter} {raw : Nat}

theorem FilterReady.next (h : FilterReady f) (hraw : raw < 2 ^ 24) : FilterReady (filterNext f raw) :=
  ⟨filterNext_seeded f raw, filterNext_acc_lt (bits := 24) (Nat.le_refl 24) hraw fun _ => h.acc⟩

theorem FilterReady.run (h : FilterReady f) (hraw : raw < 2 ^ 24) (n : Nat) : FilterReady (filterRun f raw n) := by
  induction n with
  | zero => exact h
  | succ n ih => exact ih.next hraw

/-- From below, a sample moves the report up, and not past the reading (R104 b). -/
theorem FilterReady.report_next_of_le (h : FilterReady f) (hraw : raw < 2 ^ 24) (hle : filterReport f ≤ raw) :
    filterReport f ≤ filterReport (filterNext f raw) ∧ filterReport (filterNext f raw) ≤ raw := by
  rw [filterReport_eq] at *
  rw [filterReport_eq, filterNext_acc_of_seeded h.seeded hraw h.acc]
  omega

/-- From above, a sample moves the report down, and not past the reading (R104 c). -/
theorem FilterReady.report_next_of_ge (h : FilterReady f) (hraw : raw < 2 ^ 24) (hge : raw ≤ filterReport f) :
    filterReport (filterNext f raw) ≤ filterReport f ∧ raw ≤ filterReport (filterNext f raw) := by
  rw [filterReport_eq] at *
  rw [filterReport_eq, filterNext_acc_of_seeded h.seeded hraw h.acc]
  omega

/-- A sample brings the accumulator closer by at least one, or leaves it where it reports the reading (R104 a to c). -/
theorem FilterReady.gap_next (h : FilterReady f) (hraw : raw < 2 ^ 24) :
    filterGap (filterNext f raw) raw ≤ filterGap f raw - 1 := by
  have hnext := filterNext_acc_of_seeded h.seeded hraw h.acc
  unfold filterGap
  omega

/-- So `n` samples bring it closer by at least `n`. -/
theorem FilterReady.gap_run (h : FilterReady f) (hraw : raw < 2 ^ 24) (n : Nat) :
    filterGap (filterRun f raw n) raw ≤ filterGap f raw - n := by
  induction n with
  | zero => exact Nat.le_refl _
  | succ n ih =>
    have hstep := (h.run hraw n).gap_next hraw
    rw [filterRun]
    omega

/-- After as many samples as the gap was wide, the report is the reading, and it stays so (R104 d). -/
theorem FilterReady.report_run (h : FilterReady f) (hraw : raw < 2 ^ 24) {n : Nat} (hn : filterGap f raw ≤ n) :
    filterReport (filterRun f raw n) = raw := by
  have hgap := h.gap_run hraw n
  exact (filterGap_eq_zero_iff _ raw).mp (by omega)

end Convergence

/-- Settles O52: step by step from either side, and exactly after `filterGap f raw` samples. -/
theorem filterConverges : Obligations.FilterConverges := by
  intro f raw bits hbits hraw hf hacc
  have hraw24 : raw < 2 ^ 24 := hraw.trans_le (Nat.pow_le_pow_right (by decide) hbits)
  have hpow : 2 ^ (bits + 7) ≤ 2 ^ 31 := Nat.pow_le_pow_right (by decide) (by omega)
  have hready : FilterReady f := ⟨hf, hacc.trans_le hpow⟩
  refine ⟨fun n => ⟨?_, ?_⟩, filterGap f raw, fun n => hready.report_run hraw24⟩
  · exact (hready.run hraw24 n).report_next_of_le hraw24
  · exact (hready.run hraw24 n).report_next_of_ge hraw24

/-! ### A stalled handler (R107, R214) -/

section Stalled

variable {s : State} {c : Nat}

theorem idle_of_stall (h : s.stall = some c) : idle s = false := by
  rw [idle, h]
  rfl

theorem rx_of_stall (h : s.stall = some c) (b : Byte) : rx b s = s := by
  simp [rx, idle_of_stall h]

theorem rxAll_of_stall (h : s.stall = some c) (bytes : List Byte) : rxAll bytes s = s :=
  rxAll_induction (P := fun u => u = s) (fun b _ hu => hu ▸ rx_of_stall h b) bytes rfl

theorem txe_of_stall (h : s.stall = some c) : txe s = .next s := by
  simp [txe, idle_of_stall h]

theorem tc_of_stall (h : s.stall = some c) : tc s = s := by
  simp [tc, idle_of_stall h]

theorem tmo_of_stall (h : s.stall = some c) : tmo s = s := by
  simp [tmo, idle_of_stall h]

/-- No response is pending while a handler waits. -/
theorem transmit_of_stall (h : s.stall = some c) (bytes : List Byte) : transmit bytes s = .next s :=
  transmit_of_notPending (.inl (by simp [h]))

end Stalled

/-- Settles O14: every instruction but EV_RST is one of the other events, received bytes, or a response to be sent. -/
theorem stallBlocksAllButReset : Obligations.StallBlocksAllButReset := by
  intro i s c h hi
  cases i with
  | servo pairs ck => exact congrArg _ (rxAll_of_stall h _)
  | qProbe k ck => exact congrArg _ (rxAll_of_stall h _)
  | qType k ck => exact congrArg _ (rxAll_of_stall h _)
  | qValue k ck => exact congrArg _ (rxAll_of_stall h _)
  | rProbe k ck => exact transmit_of_stall h _
  | rType k t ck => exact transmit_of_stall h _
  | rValue2 k v ck => exact transmit_of_stall h _
  | rValue4 k v ck => exact transmit_of_stall h _
  | evRst => exact absurd rfl hi
  | evRx b => exact congrArg _ (rx_of_stall h b)
  | evTxe => exact txe_of_stall h
  | evTc => exact congrArg _ (tc_of_stall h)
  | evTmo => exact congrArg _ (tmo_of_stall h)

/-! ### A Value query is answered or stalls (R101, R107, R146) -/

/-- Settles O38: the answer of `exec_qValue_answered`, its bytes written out for each width. -/
theorem valueQueryAnswered : Obligations.ValueQueryAnswered := by
  intro s s1 k i raw h hi hsensor hacq
  refine ⟨fun hw => ?_, fun hw => ?_⟩
  · rw [exec_qValue_answered h hi hsensor hacq (.inl hw), hw, valueBytes, if_pos rfl, bytes16_setWidth]
    rfl
  · rw [exec_qValue_answered h hi hsensor hacq (.inr hw), hw]
    rfl

/-- A Value query of a supported width whose acquisition never returns ends where the acquisition does (R107). -/
theorem valueQuery_of_stalled {c : Byte} {k : Fin 3} {t : Word16} {s s1 : State}
    (hwidth : typeWidth t = 2 ∨ typeWidth t = 4) (hstalled : sensorValue k s = (.stalled, s1)) :
    valueQuery c k t s = s1 := by
  rw [valueQuery, if_pos hwidth, hstalled]

/-- Settles O39: the verified query is executed up to its acquisition. -/
theorem valueQueryStalls : Obligations.ValueQueryStalls := by
  intro s s1 k i h hi hsensor hwidth hacq
  obtain ⟨_, hchan, -⟩ := sensorType_ne_zero hsensor
  have hparsed := adcRead_queryParsed s.cfg.reg[k].chan (cmdByte 0xA i) (lowByte (queryChecksum 0xA i)) s
  rw [hacq] at hparsed
  refine congrArg Host.Outcome.next ((rxAll_verified 0xA h).trans ?_)
  rw [queryExec_value (s := queryParsed _ _ s) (by simpa using hi) hsensor (cmdOp_cmdByte 0xA i), queryParsed_cfg]
  exact valueQuery_of_stalled hwidth (sensorValue_of_never (s := queryParsed _ _ s) hchan hparsed)

/-! ### When a filter is sampled (R101, R109, R264) -/

/-- What is appended to the trace is appended to the acquisition requests, as far as it is one (R11). -/
theorem adcRequests_of_io {s t : State} {ops : List IoOp} (h : t.io = s.io ++ ops) :
    t.adcRequests = s.adcRequests ++ ops.filterMap IoOp.adc? := by
  rw [State.adcRequests, State.adcRequests, h, List.filterMap_append]

/-- `t` has the filters of `s` and no further acquisition request. -/
def Unsampled (s t : State) : Prop :=
  t.filt = s.filt ∧ t.adcRequests = s.adcRequests

/-- Operations on the other collaborators sample nothing. -/
theorem unsampled_of_io {s t : State} {ops : List IoOp} (hfilt : t.filt = s.filt) (hio : t.io = s.io ++ ops)
    (hops : ops.filterMap IoOp.adc? = []) : Unsampled s t :=
  ⟨hfilt, by rw [adcRequests_of_io hio, hops, List.append_nil]⟩

theorem unsampled_of_io_eq {s t : State} (hfilt : t.filt = s.filt) (hio : t.io = s.io) : Unsampled s t :=
  unsampled_of_io (ops := []) hfilt (by rw [hio, List.append_nil]) rfl

theorem servoAccept_unsampled (s : State) : Unsampled s (servoAccept s) := by
  rw [servoAccept_eq]
  exact unsampled_of_io rfl rfl (by simp)

/-- No byte received in FDL samples a sensor (R121 to R126). -/
theorem rxServo_unsampled (b : Byte) (s : State) : Unsampled s (rxServo b s) := by
  rcases rxServo_cases b s with
    ⟨-, -, h⟩ | ⟨-, ⟨-, h⟩ | ⟨-, -, h⟩ | ⟨-, -, -, h⟩ | ⟨-, -, -, -, h⟩ | ⟨-, -, -, -, h⟩⟩ <;> rw [h]
  case inr.inr.inr.inr.inr => exact servoAccept_unsampled _
  all_goals exact unsampled_of_io_eq rfl rfl

/-- The answering of a query samples nothing more: the sampling is done when the response is built (R147, R148). -/
theorem startTx_fill_unsampled (bs : List Byte) (s : State) : Unsampled s (startTx (fillResponse bs s)) := by
  rw [startTx_fill_eq]
  exact unsampled_of_io rfl rfl rfl

/-- A query with command byte `c` leads from `s` to an answer after one sample of the sensor it names, and one acquisition
request on that sensor's channel (R101, R146). -/
def SampledBy (c : Byte) (s t : State) : Prop :=
  t.ls = .hdt ∧ cmdOp c = 0xA ∧ ∃ (k : Fin 3) (raw : Nat), k.val + 1 = (cmdIndex c).toNat ∧ raw < 2 ^ s.cfg.rawBits ∧
    t.filt = s.filt.set k (filterNext s.filt[k] raw) ∧ t.adcRequests = s.adcRequests ++ [s.cfg.reg[k].chan]

/-- `t` has the filters of `s`, and no further acquisition request unless its handler waits for the answer (R107). -/
def NoAnsweredSample (s t : State) : Prop :=
  t.filt = s.filt ∧ (t.adcRequests = s.adcRequests ∨ (t.stall ≠ none ∧ t.ls = s.ls))

theorem Unsampled.noAnsweredSample {s t : State} (h : Unsampled s t) : NoAnsweredSample s t :=
  h.imp_right .inl

/-- A verified query samples nothing, stalls, or is a Value query answered after one sample (R143 to R146). -/
theorem queryExec_sampling (c : Byte) (w : Word16) (s : State) :
    NoAnsweredSample s (queryExec c w s) ∨ SampledBy c s (queryExec c w s) := by
  rcases queryExec_cases c w s with
    ⟨e, -, h⟩ | ⟨-, bs, -, h⟩ | ⟨hop, k, hk, -, adc, draws, h | ⟨raw, hraw, bs, -, h⟩⟩ <;> rw [h]
  · exact .inl (unsampled_of_io_eq rfl rfl).noAnsweredSample
  · exact .inl (startTx_fill_unsampled bs s).noAnsweredSample
  · exact .inl ⟨rfl, .inr ⟨nofun, rfl⟩⟩
  · obtain ⟨hfilt, hrequests⟩ := startTx_fill_unsampled bs
      { s with io := s.io ++ [.adc s.cfg.reg[k].chan], adc := adc, draws := draws,
               filt := s.filt.set k (filterNext s.filt[k] raw) }
    have hone := hrequests.trans (adcRequests_of_io (s := s) (ops := [.adc s.cfg.reg[k].chan]) rfl)
    exact .inr ⟨by rw [startTx_fill_eq], hop, k, raw, hk, hraw, hfilt, hone⟩

/-- A byte received in HDL samples a sensor only as the right last byte of a Value query (R140 to R143). -/
theorem rxQuery_sampling (b : Byte) (s : State) :
    NoAnsweredSample s (rxQuery b s) ∨ (pair s.fa.prev b = s.fa.ck ∧ SampledBy s.qcmd s (rxQuery b s)) := by
  rcases rxQuery_cases b s with
    ⟨-, -, h⟩ | ⟨-, -, h⟩ | ⟨-, h⟩ | ⟨-, h⟩ | ⟨-, hck, h⟩ | ⟨-, -, h⟩ | ⟨-, h⟩ <;> rw [h]
  case inr.inr.inr.inr.inl =>
    exact (queryExec_sampling s.qcmd s.fa.ck { s with fa := { s.fa with n := 0 } }).imp_right fun hs => ⟨hck, hs⟩
  all_goals exact .inl (unsampled_of_io_eq rfl rfl).noAnsweredSample

theorem txeHandler_unsampled (b : Byte) (s : State) : Unsampled s (txeHandler b s) := by
  rw [txeHandler_eq]
  split <;> exact unsampled_of_io rfl rfl rfl

theorem txe_unsampled {s t : State} (h : txe s = .next t) : Unsampled s t := by
  rcases txe_cases s with he | ⟨-, -, -, ⟨-, he⟩ | ⟨_, he⟩⟩ <;> cases he.symm.trans h
  · exact unsampled_of_io_eq rfl rfl
  · exact txeHandler_unsampled _ s

theorem tc_unsampled (s : State) : Unsampled s (tc s) := by
  rcases tc_cases s with h | ⟨-, -, -, h⟩ <;> rw [h]
  · exact unsampled_of_io_eq rfl rfl
  · rw [tcHandler_eq]
    exact unsampled_of_io rfl rfl rfl

theorem tmo_unsampled (s : State) : Unsampled s (tmo s) := by
  rcases tmo_cases s with h | ⟨-, -, h⟩ <;> rw [h]
  · exact unsampled_of_io_eq rfl rfl
  · rw [tmoHandler_eq]
    exact unsampled_of_io rfl rfl rfl

/-- Settles O20: of all events, only the byte that ends a verified Value query reaches the sampling of `queryExec`. -/
theorem filterAdvancesOnlyWhenAsked : Obligations.FilterAdvancesOnlyWhenAsked := by
  refine ⟨fun b s t h => ?_, fun i s t hi h => ?_⟩
  · cases h
    rcases rx_cases b s with h | ⟨-, -, -, h⟩ | ⟨-, -, hls, h⟩ <;> rw [h]
    · exact .inl ⟨rfl, .inl rfl⟩
    · exact .inl ((rxServo_unsampled b s).imp_right .inl)
    · rcases rxQuery_sampling b s with ⟨hfilt, hrequests⟩ | ⟨hck, hhdt, hop, hsample⟩
      · exact .inl ⟨hfilt, hrequests.imp_right fun ⟨hstall, hkept⟩ => ⟨hstall, hkept.trans hls⟩⟩
      · exact .inr ⟨hls, hhdt, hop, hck, hsample⟩
  · rcases hi with rfl | rfl | rfl
    · exact txe_unsampled h
    · cases h
      exact tc_unsampled s
    · cases h
      exact tmo_unsampled s

end Sys2Proof.Machine

/-! ## Proofs: SERVO reception (41_link_servo)

The byte parser of Full-Duplex-Listening one byte at a time, a frame taken in whole, a frame with a header inside, and the
watchdog kick that only an accepted frame brings. -/

namespace Sys2Proof.Machine

/-! ### One received byte (R121 to R126) -/

section OneByte

variable {s : State} {b : Byte}

/-- In FDL, listening, a byte is taken by the servo parser (R120, R121). -/
theorem ListensForServo.rx_eq (h : ListensForServo s) (b : Byte) : rx b s = rxServo b s := by
  obtain ⟨hstall, hls, hline⟩ := h
  have hre : (lineRow .fdl).re = true := rfl
  simp [rx, idle, rxEnabled, hstall, hls, hline, hre]

/-- The second header byte after the first (R121, R127). -/
theorem rx_header (h : ListensForServo s) (hprev : s.fa.prev = Config.hdr0) :
    rx Config.hdr1 s = { s with
      fa := ⟨true, 0, Config.hdr1, ckAfterHeader⟩
      drops := if s.fa.sync then s.drops ++ [.resync] else s.drops } := by
  rw [h.rx_eq]
  rcases rxServo_cases Config.hdr1 s with ⟨-, -, he⟩ | ⟨hno, -⟩
  · exact he
  · exact absurd ⟨hprev, rfl⟩ hno

/-- Hunting (R122). -/
theorem rx_hunting (h : ListensForServo s) (hsync : s.fa.sync = false)
    (hno : ¬ (s.fa.prev = Config.hdr0 ∧ b = Config.hdr1)) : rx b s = { s with fa := { s.fa with prev := b } } := by
  rw [h.rx_eq, rxServo]
  simp only [if_neg hno, hsync, if_true]

/-- The first byte of a pair (R123). -/
theorem rx_first_of_pair (h : ListensForServo s) (hsync : s.fa.sync = true)
    (hno : ¬ (s.fa.prev = Config.hdr0 ∧ b = Config.hdr1)) (heven : s.fa.n % 2 = 0) :
    rx b s = { s with fa := { s.fa with prev := b, n := s.fa.n + 1 } } := by
  rw [rx_in_attempt h hsync hno, if_pos heven]

/-- The second byte of a channel pair (R124). -/
theorem rx_channel_pair (h : ListensForServo s) (hsync : s.fa.sync = true)
    (hno : ¬ (s.fa.prev = Config.hdr0 ∧ b = Config.hdr1)) {k : Nat} (hn : s.fa.n = 2 * k + 1) (hk : k < 14) :
    rx b s = channelPair k s.fa.prev b { s with fa := { s.fa with prev := b } } := by
  rw [rx_in_attempt h hsync hno, if_neg (by omega), show s.fa.n / 2 = k by omega, if_pos hk]

/-- The second trailer byte (R125). -/
theorem rx_trailer (h : ListensForServo s) (hsync : s.fa.sync = true)
    (hno : ¬ (s.fa.prev = Config.hdr0 ∧ b = Config.hdr1)) (hn : s.fa.n = 29) :
    rx b s = checksumPair (pair s.fa.prev b) { s with fa := { s.fa with prev := b } } := by
  rw [rx_in_attempt h hsync hno, if_neg (by omega), if_neg (by omega)]

/-- Inside an attempt, before its last byte, a byte that completes no header moves the position on and touches only the
parser's registers (R123, R124). -/
theorem rx_before_last (h : ListensForServo s) (hsync : s.fa.sync = true)
    (hno : ¬ (s.fa.prev = Config.hdr0 ∧ b = Config.hdr1)) (hn : s.fa.n < 29) :
    ∃ tf ck, rx b s = { s with tf := tf, fa := ⟨s.fa.sync, s.fa.n + 1, b, ck⟩ } := by
  by_cases heven : s.fa.n % 2 = 0
  · exact ⟨s.tf, s.fa.ck, rx_first_of_pair h hsync hno heven⟩
  · exact ⟨_, _, rx_channel_pair (k := s.fa.n / 2) h hsync hno (by omega) (by omega)⟩

/-- A trailer that is the running checksum (R125, R126). -/
theorem checksumPair_of_eq {w : Word16} (hw : w = s.fa.ck) :
    checksumPair w s = servoAccept { s with fa := { s.fa with sync := false, n := 0 } } := if_pos hw

/-- Any other trailer (R125). -/
theorem checksumPair_of_ne {w : Word16} (hw : w ≠ s.fa.ck) :
    checksumPair w s = { s with fa := { s.fa with sync := false, n := 0 }, drops := s.drops ++ [.cksum] } := if_neg hw

/-- The acceptance sequence run on a parsed frame: the channels are published and mixed, the timer is armed, the line is
half-duplex (R126). The mixer looks at none of the parser's registers. -/
theorem servoAccept_parsed (h : ListensForServo s) (fa : FrameAcc) (tf : Vector Chan12 14) (drops : List ErrorKind) :
    servoAccept { s with fa := fa, tf := tf, drops := drops } =
      let m := mix { s with cvs := tf.map fun v => (v.toNat : Int) }
      { m with
        ls := .hdl
        tf := tf
        fa := ⟨false, 0, 0x00, fa.ck⟩
        tmrArmed := true
        linectl := lineRow .hdl
        io := m.io ++ [.arm, .line (lineRow .hdl)]
        drops := drops } := by
  obtain ⟨-, -, hline⟩ := h
  simp only [servoAccept_eq, mix_eq, hline, List.append_assoc]
  rfl

end OneByte

/-- Settles O21: the hunting branch of the parser. -/
theorem huntingByteIgnored : Obligations.HuntingByteIgnored :=
  fun _ _ h hsync hno => congrArg _ (rx_hunting h hsync hno)

/-- Settles O22: the header test comes before every other branch of the parser. -/
theorem headerStartsAttempt : Obligations.HeaderStartsAttempt :=
  fun _ h hprev => congrArg _ (rx_header h hprev)

/-- Settles O23: the branch of an even position. -/
theorem firstPairByteRemembered : Obligations.FirstPairByteRemembered :=
  fun _ _ h hsync heven hno => congrArg _ (rx_first_of_pair h hsync hno heven)

/-- Settles O24: the branch of an odd position below 29; `TF[k]` exists, so the store is not out of bounds. -/
theorem channelPairStored : Obligations.ChannelPairStored := by
  intro b s k h hsync hn hno
  refine congrArg Host.Outcome.next ((rx_channel_pair h hsync hno hn k.isLt).trans ?_)
  have hstore (v : Chan12) : s.tf.setIfInBounds k.val v = s.tf.set k.val v := by
    ext j hj
    simp [Vector.getElem_set, Vector.getElem_setIfInBounds]
  rw [channelPair, hstore]
  rfl

/-- Settles O25: `checksumPair` on the parsed channels, with the acceptance of `servoAccept_parsed`. -/
theorem trailerAcceptsOrDrops : Obligations.TrailerAcceptsOrDrops := by
  intro b s h hsync hn hno w m
  refine ⟨fun hw => congrArg Host.Outcome.next ((rx_trailer h hsync hno hn).trans ?_),
    fun hw => congrArg Host.Outcome.next ((rx_trailer h hsync hno hn).trans ?_)⟩
  · have haccept := servoAccept_parsed h { s.fa with sync := false, n := 0, prev := b } s.tf s.drops
    refine (checksumPair_of_eq (s := { s with fa := { s.fa with prev := b } }) hw).trans (haccept.trans ?_)
    simp only [m, mix_eq]
  · exact checksumPair_of_ne (s := { s with fa := { s.fa with prev := b } }) hw

/-! ### A whole frame (R72, R123 to R127) -/

/-- A list of bytes without a header, cut in two: the last byte of the first part goes before the second. -/
theorem noHeader_append (a : Byte) (l₁ l₂ : List Byte) :
    noHeader (a :: (l₁ ++ l₂)) = (noHeader (a :: l₁) && noHeader (l₁.getLastD a :: l₂)) := by
  induction l₁ generalizing a with
  | nil => simp [noHeader]
  | cons b bs ih => simp only [List.cons_append, noHeader, ih, List.getLastD_cons, Bool.and_assoc]

/-- The header's second byte is not its first, so no header begins there. -/
theorem noHeader_hdr1_cons (l : List Byte) : noHeader (Config.hdr1 :: l) = noHeader l := by
  cases l with
  | nil => rfl
  | cons b bs =>
    have hne : (Config.hdr1 == Config.hdr0) = false := by decide
    simp [noHeader, hne]

/-- No header is completed by the first of these bytes. -/
theorem no_header_first {a b : Byte} {l : List Byte} (h : noHeader (a :: b :: l) = true) :
    ¬ (a = Config.hdr0 ∧ b = Config.hdr1) := by
  rintro ⟨rfl, rfl⟩
  simp [noHeader] at h

/-- The rest of a list without a header has none. -/
theorem noHeader_tail {a : Byte} {l : List Byte} (h : noHeader (a :: l) = true) : noHeader l = true := by
  cases l with
  | nil => rfl
  | cons b bs => simp only [noHeader, Bool.and_eq_true] at h; exact h.2

section WholeFrame

variable {s : State} {pairs : List Word16} {ck : Word16}

/-- The frame's first byte is remembered, and begins no header of its own: whatever attempt is in progress stays in progress
(R122 to R124). -/
theorem rx_hdr0 (h : ListensForServo s) (hlast : s.fa.sync = true → s.fa.n < 29) :
    ∃ tf n ck, rx Config.hdr0 s = { s with tf := tf, fa := ⟨s.fa.sync, n, Config.hdr0, ck⟩ } := by
  have hno : ¬ (s.fa.prev = Config.hdr0 ∧ Config.hdr0 = Config.hdr1) := fun ⟨_, hh⟩ => absurd hh (by decide)
  by_cases hsync : s.fa.sync = true
  · obtain ⟨tf, ck, he⟩ := rx_before_last h hsync hno (hlast hsync)
    exact ⟨tf, _, ck, he⟩
  · exact ⟨s.tf, s.fa.n, s.fa.ck, rx_hunting h (by simpa using hsync) hno⟩

/-- The header begins an attempt with the channels of `TF` as some earlier bytes have left them (R121, R127). -/
theorem rxAll_header (h : ListensForServo s) (hlast : s.fa.sync = true → s.fa.n < 29) (bytes : List Byte) :
    ∃ tf, rxAll (Config.hdr0 :: Config.hdr1 :: bytes) s = rxAll bytes { s with
      tf := tf
      fa := ⟨true, 0, Config.hdr1, ckAfterHeader⟩
      drops := if s.fa.sync then s.drops ++ [.resync] else s.drops } := by
  obtain ⟨tf, n, ck, hfirst⟩ := rx_hdr0 h hlast
  have hsecond := rx_header (s := { s with tf := tf, fa := ⟨s.fa.sync, n, Config.hdr0, ck⟩ }) h rfl
  exact ⟨tf, by rw [rxAll, rxAll, hfirst, hsecond]⟩

/-- What the header and the fourteen channel pairs of a frame leave: the parser before the trailer (R121 to R124). -/
def channelsReceived (pairs : List Word16) (s : State) : State :=
  { s with
    tf := Vector.ofFn fun k => channelValue (pairs.getD k.val 0)
    fa := ⟨true, 28, (pairBytes pairs).getLastD Config.hdr1, servoChecksum pairs⟩
    drops := if s.fa.sync then s.drops ++ [.resync] else s.drops }

/-- The parser with the trailer in too, as the trailer is compared with the running checksum (R125). -/
def trailerReceived (pairs : List Word16) (ck : Word16) (s : State) : State :=
  { channelsReceived pairs s with fa := ⟨true, 29, highByte ck, servoChecksum pairs⟩ }

/-- Fourteen pairs fill every channel of `TF`, so nothing of its earlier contents is left (R124). -/
theorem pairsParsed_all (hlen : pairs.length = 14) (tf : Vector Chan12 14) (drops : List ErrorKind) :
    pairsParsed pairs 0 { s with tf := tf, fa := ⟨true, 0, Config.hdr1, ckAfterHeader⟩, drops := drops } = { s with
      tf := Vector.ofFn fun k => channelValue (pairs.getD k.val 0)
      fa := ⟨true, 28, (pairBytes pairs).getLastD Config.hdr1, servoChecksum pairs⟩
      drops := drops } := by
  rw [pairsParsed_eq pairs 0 _ rfl]
  simp only [hlen, Nat.zero_le, true_and, Nat.zero_add, Fin.is_lt, if_true, Nat.sub_zero]
  rfl

/-- A frame with no header inside is taken in up to its trailer, pair by pair (R121 to R124). -/
theorem rxAll_servo (hlen : pairs.length = 14) (hbody : noHeader (servoBody pairs ck) = true) (h : ListensForServo s)
    (hlast : s.fa.sync = true → s.fa.n < 29) :
    rxAll (servoBytes pairs ck) s = rxAll (bytes16 ck) (channelsReceived pairs s) := by
  obtain ⟨tf, hheader⟩ := rxAll_header h hlast (pairBytes pairs ++ bytes16 ck)
  rw [← noHeader_hdr1_cons, servoBody, noHeader_append, Bool.and_eq_true] at hbody
  obtain ⟨hpairs, -⟩ := hbody
  have hchannels := rxAll_pairs pairs 0 { s with
    tf := tf
    fa := ⟨true, 0, Config.hdr1, ckAfterHeader⟩
    drops := if s.fa.sync then s.drops ++ [.resync] else s.drops } h rfl rfl (by omega) hpairs
  rw [servoBytes, hheader, rxAll_append, hchannels, pairsParsed_all hlen]
  rfl

/-- The two trailer bytes run the checksum comparison (R125). -/
theorem rxAll_trailer (hbody : noHeader (servoBody pairs ck) = true) (h : ListensForServo s) :
    rxAll (bytes16 ck) (channelsReceived pairs s) = checksumPair ck (trailerReceived pairs ck s) := by
  rw [← noHeader_hdr1_cons, servoBody, noHeader_append, Bool.and_eq_true] at hbody
  obtain ⟨-, htrailer⟩ := hbody
  have hfirst := rx_first_of_pair (b := lowByte ck) (s := channelsReceived pairs s) h rfl (no_header_first htrailer)
    (by simp [channelsReceived])
  have hsecond := rx_trailer (b := highByte ck) (s := { channelsReceived pairs s with
    fa := ⟨true, 29, lowByte ck, servoChecksum pairs⟩ }) h rfl (no_header_first (noHeader_tail htrailer)) rfl
  rw [pair_low_high] at hsecond
  rw [bytes16, rxAll, rxAll, rxAll, hfirst]
  exact hsecond

/-- A frame with no header inside ends in the comparison of its trailer with its checksum (R125). -/
theorem exec_servo_of_noHeader (hlen : pairs.length = 14) (hbody : noHeader (servoBody pairs ck) = true)
    (h : ListensForServo s) (hlast : s.fa.sync = true → s.fa.n < 29) :
    exec (.servo pairs ck) s = .next (checksumPair ck (trailerReceived pairs ck s)) :=
  congrArg _ ((rxAll_servo hlen hbody h hlast).trans (rxAll_trailer hbody h))

/-- The published channels are the frame's (R74, R126). -/
theorem map_channels (pairs : List Word16) :
    (Vector.ofFn fun k : Fin 14 => channelValue (pairs.getD k.val 0)).map (fun v => (v.toNat : Int)) =
      frameChannels pairs := by
  ext j hj
  simp [frameChannels]

end WholeFrame

/-- Settles O26: the frame's trailer is its checksum, so the comparison accepts it. -/
theorem servoFrameAccepted : Obligations.ServoFrameAccepted := by
  intro pairs s hlen hbody h hlast
  rw [exec_servo_of_noHeader hlen hbody h hlast,
    checksumPair_of_eq (w := servoChecksum pairs) (s := trailerReceived pairs _ s) rfl, ← map_channels]
  exact congrArg Host.Outcome.next (servoAccept_parsed h ⟨false, 0, _, servoChecksum pairs⟩ _ _)

/-- Settles O27: any other trailer ends the attempt with a drop. -/
theorem corruptServoFrameDropped : Obligations.CorruptServoFrameDropped := by
  intro pairs ck s hlen hbody hck h hsync
  rw [exec_servo_of_noHeader hlen hbody h (by simp [hsync]), checksumPair_of_ne (s := trailerReceived pairs ck s) hck]
  simp [trailerReceived, channelsReceived, hsync, channelValue]

/-! ### A header inside a frame (R127, R260)

An attempt that begins inside the frame has fewer than 30 bytes of it left, so no attempt reaches its last byte. -/

/-- `t` is `s` but for the parser's registers and further drops `l`. -/
def ParserOnly (l : List ErrorKind) (s t : State) : Prop :=
  ∃ fa tf, t = { s with fa := fa, tf := tf, drops := s.drops ++ l }

theorem ParserOnly.refl (s : State) : ParserOnly [] s s := ⟨s.fa, s.tf, by rw [List.append_nil]⟩

theorem ParserOnly.trans {l₁ l₂ : List ErrorKind} {s t u : State} (h₁ : ParserOnly l₁ s t) (h₂ : ParserOnly l₂ t u) :
    ParserOnly (l₁ ++ l₂) s u := by
  obtain ⟨_, _, rfl⟩ := h₁
  obtain ⟨fa, tf, rfl⟩ := h₂
  exact ⟨fa, tf, by rw [List.append_assoc]⟩

theorem ParserOnly.listens {l : List ErrorKind} {s t : State} (h : ListensForServo s) (ht : ParserOnly l s t) :
    ListensForServo t := by
  obtain ⟨_, _, rfl⟩ := ht
  exact h

section InnerHeader

variable {s : State}

/-- A completed header begins a new attempt, and is one more drop inside an attempt (R121, R127). -/
theorem rx_header_parserOnly (h : ListensForServo s) (hprev : s.fa.prev = Config.hdr0) :
    ParserOnly (if s.fa.sync then [.resync] else []) s (rx Config.hdr1 s) ∧ (rx Config.hdr1 s).fa.n = 0 := by
  rw [rx_header h hprev]
  refine ⟨⟨⟨true, 0, Config.hdr1, ckAfterHeader⟩, s.tf, ?_⟩, rfl⟩
  split <;> simp

/-- A byte that is not the last of an attempt moves the parser only, and an attempt by at most one position (R121 to
R124). -/
theorem rx_parserOnly (b : Byte) (h : ListensForServo s) (hn : s.fa.sync = true → s.fa.n < 29) :
    ∃ l, ParserOnly l s (rx b s) ∧
      ((rx b s).fa.sync = true → (rx b s).fa.n = 0 ∨ s.fa.sync = true ∧ (rx b s).fa.n = s.fa.n + 1) := by
  by_cases hh : s.fa.prev = Config.hdr0 ∧ b = Config.hdr1
  · obtain ⟨hprev, rfl⟩ := hh
    obtain ⟨hmoved, hzero⟩ := rx_header_parserOnly h hprev
    exact ⟨_, hmoved, fun _ => .inl hzero⟩
  · by_cases hsync : s.fa.sync = true
    · obtain ⟨tf, ck, he⟩ := rx_before_last h hsync hh (hn hsync)
      rw [he]
      exact ⟨[], ⟨_, tf, by rw [List.append_nil]⟩, fun _ => .inr ⟨hsync, rfl⟩⟩
    · rw [rx_hunting h (by simpa using hsync) hh]
      exact ⟨[], ⟨_, s.tf, by rw [List.append_nil]⟩, fun hs => absurd hs hsync⟩

/-- Too few bytes to end the attempt in progress, or one that begins among them, move the parser only. -/
theorem rxAll_parserOnly (bytes : List Byte) (h : ListensForServo s)
    (hn : s.fa.sync = true → s.fa.n + bytes.length < 30) (hshort : bytes.length ≤ 30) :
    ∃ l, ParserOnly l s (rxAll bytes s) := by
  induction bytes generalizing s with
  | nil => exact ⟨[], .refl s⟩
  | cons b bs ih =>
    simp only [List.length_cons] at hn hshort
    obtain ⟨l₁, hfirst, hpos⟩ := rx_parserOnly b h (fun hsync => by have := hn hsync; omega)
    have hrest : (rx b s).fa.sync = true → (rx b s).fa.n + bs.length < 30 := by
      intro hsync
      rcases hpos hsync with hzero | ⟨hold, hnext⟩
      · omega
      · have := hn hold
        omega
    obtain ⟨l₂, hmoved⟩ := ih (hfirst.listens h) hrest (by omega)
    exact ⟨_, hfirst.trans hmoved⟩

/-- A header among the bytes still missing from an attempt abandons it, and what is left of them is too short to end the new
one (R127, R260). -/
theorem rxAll_resync (bytes : List Byte) (h : ListensForServo s) (hsync : s.fa.sync = true)
    (hn : s.fa.n + bytes.length ≤ 30) (hheader : noHeader (s.fa.prev :: bytes) = false) :
    ∃ l, ParserOnly l s (rxAll bytes s) ∧ .resync ∈ l := by
  induction bytes generalizing s with
  | nil => exact absurd hheader (by simp [noHeader])
  | cons b bs ih =>
    simp only [List.length_cons] at hn
    by_cases hh : s.fa.prev = Config.hdr0 ∧ b = Config.hdr1
    · obtain ⟨hprev, rfl⟩ := hh
      obtain ⟨hfirst, hzero⟩ := rx_header_parserOnly h hprev
      obtain ⟨l, hmoved⟩ := rxAll_parserOnly bs (hfirst.listens h) (fun _ => by omega) (by omega)
      exact ⟨_, hfirst.trans hmoved, by simp [hsync]⟩
    · have htail : noHeader (b :: bs) = false := by simpa [noHeader, not_and_or.mp hh] using hheader
      have hmore : 0 < bs.length := List.length_pos_of_ne_nil (by rintro rfl; simp [noHeader] at htail)
      obtain ⟨tf, ck, he⟩ := rx_before_last h hsync hh (by omega)
      have hfirst : ParserOnly [] s (rx b s) := ⟨_, tf, by rw [he, List.append_nil]⟩
      obtain ⟨l, hmoved, hmem⟩ := ih (s := rx b s) (hfirst.listens h) (by rw [he]; exact hsync)
        (by rw [he]; dsimp only; omega) (by rw [he]; exact htail)
      exact ⟨l, hfirst.trans hmoved, hmem⟩

end InnerHeader

/-- Settles O28: the frame's header begins an attempt, and the header inside abandons it. -/
theorem innerHeaderNeverAccepted : Obligations.InnerHeaderNeverAccepted := by
  intro pairs ck s hlen hbody h hsync
  have hlength : (servoBody pairs ck).length = 30 := by simp [servoBody, hlen, bytes16]
  obtain ⟨tf, hheader⟩ := rxAll_header h (by simp [hsync]) (servoBody pairs ck)
  obtain ⟨l, ⟨fa, tf', hmoved⟩, hresync⟩ := rxAll_resync (s := { s with
      tf := tf
      fa := ⟨true, 0, Config.hdr1, ckAfterHeader⟩
      drops := if s.fa.sync then s.drops ++ [.resync] else s.drops })
    (servoBody pairs ck) h rfl (by simp [hlength]) (by rw [noHeader_hdr1_cons, hbody])
  refine ⟨_, l, congrArg Host.Outcome.next (hheader.trans hmoved), ?_, ⟨rfl, rfl, rfl, rfl, rfl, rfl⟩, rfl, rfl, rfl, ?_,
    hresync⟩
  · obtain ⟨-, hls, -⟩ := h
    exact hls
  · simp [hsync]

/-! ### The watchdog kick (R126, R191, R259) -/

/-- What is appended to the trace is appended to `WDG_OUT`, as far as it is a kick (R11). -/
theorem wdgOut_of_io {s t : State} {ops : List IoOp} (h : t.io = s.io ++ ops) :
    t.wdgOut = s.wdgOut ++ ops.filterMap IoOp.wdg? := by
  rw [State.wdgOut, State.wdgOut, h, List.filterMap_append]

/-- Operations other than a kick leave `WDG_OUT` as it is. -/
theorem wdgOut_of_no_kick {s t : State} {ops : List IoOp} (h : t.io = s.io ++ ops) (hops : ops.filterMap IoOp.wdg? = []) :
    t.wdgOut = s.wdgOut := by
  rw [wdgOut_of_io h, hops, List.append_nil]

/-- `ServoAccept()` kicks once, in `Mix()`, and arms the timer once (R126, R191). -/
theorem servoAccept_kick (s : State) :
    (servoAccept s).wdgOut = s.wdgOut ++ [.kick] ∧ (servoAccept s).armRequests = s.armRequests + 1 := by
  rw [servoAccept_eq]
  refine ⟨by rw [wdgOut_of_io rfl]; simp, ?_⟩
  simp [State.armRequests, List.countP_cons]

/-- A byte received in FDL kicks only where it runs the acceptance sequence, as the last byte of an attempt with the right
trailer (R125, R126). -/
theorem rxServo_kick (b : Byte) (s : State) :
    (rxServo b s).wdgOut = s.wdgOut ∨
    (s.fa.sync = true ∧ 29 ≤ s.fa.n ∧ pair s.fa.prev b = s.fa.ck ∧
      rxServo b s = servoAccept { s with fa := { s.fa with sync := false, n := 0, prev := b } }) := by
  rcases rxServo_cases b s with
    ⟨-, -, h⟩ | ⟨-, ⟨-, h⟩ | ⟨-, -, h⟩ | ⟨-, -, -, h⟩ | ⟨-, -, -, -, h⟩ | ⟨hsync, hodd, hpos, hck, h⟩⟩
  case inr.inr.inr.inr.inr => exact .inr ⟨hsync, by omega, hck, h⟩
  all_goals exact .inl (by rw [h]; rfl)

/-- Answering a query kicks nothing (R147, R148). -/
theorem startTx_fill_wdgOut (bs : List Byte) (s : State) : (startTx (fillResponse bs s)).wdgOut = s.wdgOut := by
  rw [startTx_fill_eq]
  exact wdgOut_of_no_kick rfl rfl

/-- Nor does the execution of a verified query, answered or not (R143 to R146). -/
theorem queryExec_wdgOut (c : Byte) (w : Word16) (s : State) : (queryExec c w s).wdgOut = s.wdgOut := by
  rcases queryExec_cases c w s with
    ⟨e, -, h⟩ | ⟨-, bs, -, h⟩ | ⟨-, k, -, -, adc, draws, h | ⟨raw, -, bs, -, h⟩⟩ <;> rw [h]
  · rfl
  · exact startTx_fill_wdgOut bs s
  · exact wdgOut_of_no_kick rfl rfl
  · exact (startTx_fill_wdgOut bs _).trans (wdgOut_of_no_kick rfl rfl)

theorem rxQuery_wdgOut (b : Byte) (s : State) : (rxQuery b s).wdgOut = s.wdgOut := by
  rcases rxQuery_cases b s with
    ⟨-, -, h⟩ | ⟨-, -, h⟩ | ⟨-, h⟩ | ⟨-, h⟩ | ⟨-, -, h⟩ | ⟨-, -, h⟩ | ⟨-, h⟩ <;> rw [h]
  case inr.inr.inr.inr.inl => exact queryExec_wdgOut s.qcmd s.fa.ck { s with fa := { s.fa with n := 0 } }
  all_goals rfl

theorem txe_wdgOut {s t : State} (h : txe s = .next t) : t.wdgOut = s.wdgOut := by
  rcases txe_cases s with he | ⟨-, -, -, ⟨-, he⟩ | ⟨_, he⟩⟩ <;> cases he.symm.trans h
  · rfl
  · rw [txeHandler_eq]
    split <;> exact wdgOut_of_no_kick rfl rfl

theorem tc_wdgOut (s : State) : (tc s).wdgOut = s.wdgOut := by
  rcases tc_cases s with h | ⟨-, -, -, h⟩ <;> rw [h]
  rw [tcHandler_eq]
  exact wdgOut_of_no_kick rfl rfl

theorem tmo_wdgOut (s : State) : (tmo s).wdgOut = s.wdgOut := by
  rcases tmo_cases s with h | ⟨-, -, h⟩ <;> rw [h]
  rw [tmoHandler_eq]
  exact wdgOut_of_no_kick rfl rfl

/-- Settles O13: of all events only a byte received in FDL can kick, and there only the acceptance sequence does. -/
theorem kickOnlyOnAcceptedFrame : Obligations.KickOnlyOnAcceptedFrame := by
  refine ⟨fun b s t h => ?_, fun i s t hi h => ?_⟩
  · cases h
    rcases rx_cases b s with he | ⟨-, -, hls, he⟩ | ⟨-, -, -, he⟩ <;> rw [he]
    · exact .inl rfl
    · rcases rxServo_kick b s with hnone | ⟨hsync, hlast, hck, haccept⟩
      · exact .inl hnone
      · obtain ⟨hkick, harm⟩ := servoAccept_kick { s with fa := { s.fa with sync := false, n := 0, prev := b } }
        have hposition (hinv : Inv s) : s.fa.n = 29 := Nat.le_antisymm (hinv.servoPosition hls) hlast
        rw [haccept]
        exact .inr ⟨hkick, hls, hsync, hlast, hposition, hck, by rw [servoAccept_eq]; rfl, by rw [servoAccept_eq],
          by rw [servoAccept_eq], harm⟩
    · exact .inl (rxQuery_wdgOut b s)
  · rcases hi with rfl | rfl | rfl
    · exact txe_wdgOut h
    · cases h
      exact tc_wdgOut s
    · cases h
      exact tmo_wdgOut s

end Sys2Proof.Machine

/-! ## Proofs: queries and the half-duplex states (42_link_query)

What a byte received in HDL does, which queries are dropped and which are answered, the events that send a response or end
the half-duplex window, and the table of link state changes. -/

namespace Sys2Proof.Machine

/-! ### One byte received in HDL (R140 to R142) -/

section QueryByte

variable {s : State}

/-- In HDL, with the receiver on, a byte is taken by the query parser (R120). -/
theorem rx_of_hdl (hstall : s.stall = none) (hls : s.ls = .hdl) (hre : s.linectl.re = true) (b : Byte) :
    rx b s = rxQuery b s := by
  simp [rx, idle, rxEnabled, hstall, hls, hre]

/-- Before a query, a byte is taken as its length byte (R140). -/
theorem ListensForQuery.rx_eq (h : ListensForQuery s) (b : Byte) : rx b s = rxLength b s := by
  obtain ⟨hstall, hls, hline, hn⟩ := h
  rw [rx_of_hdl hstall hls (by rw [hline]; rfl)]
  simp only [rxQuery, hn]

/-- The length byte begins a query: the running checksum is `0xFFFF - 4` (R140). -/
theorem ListensForQuery.rx_qlen (h : ListensForQuery s) :
    rx Config.qlen s = { s with fa := { s.fa with ck := 0xFFFB, n := 1 } } := by
  rw [h.rx_eq, rxLength, if_pos rfl]
  rfl

/-- A byte that is no length byte is dropped alone (R140). -/
theorem ListensForQuery.rx_of_ne (h : ListensForQuery s) {b : Byte} (hb : b ≠ Config.qlen) :
    rx b s = { s with drops := s.drops ++ [.len] } := by
  rw [h.rx_eq, rxLength, if_neg hb]
  rfl

/-- So the block listens on, and bytes without a length byte among them are dropped one by one. -/
theorem ListensForQuery.rxAll_of_notMem {bytes : List Byte} (h : ListensForQuery s) (hno : Config.qlen ∉ bytes) :
    rxAll bytes s = { s with drops := s.drops ++ List.replicate bytes.length .len } := by
  induction bytes generalizing s with
  | nil => simp [rxAll]
  | cons b bs ih =>
    obtain ⟨hne, hrest⟩ := not_or.mp (mt List.mem_cons.mpr hno)
    have hdropped : ListensForQuery { s with drops := s.drops ++ [.len] } := h
    rw [rxAll, h.rx_of_ne (Ne.symm hne), ih hdropped hrest]
    simp [List.replicate_succ]

/-- The last byte of a query with the right trailer executes it (R142). -/
theorem rxQuery_verified {b : Byte} (hn : s.fa.n = 3) (hck : pair s.fa.prev b = s.fa.ck) :
    rxQuery b s = queryExec s.qcmd s.fa.ck { s with fa := { s.fa with n := 0 } } := by
  simp only [rxQuery, hn, rxTrailerHigh, hck, if_true]

end QueryByte

/-- A SERVO frame has 32 bytes (R72). -/
theorem servoBytes_length {pairs : List Word16} (ck : Word16) (hlen : pairs.length = 14) :
    (servoBytes pairs ck).length = 32 := by
  simp [servoBytes, bytes16, hlen]

/-- Settles O30: none of the frame's bytes is a length byte. -/
theorem servoInHalfDuplexDropped : Obligations.ServoInHalfDuplexDropped := by
  intro pairs ck s hlen h hno
  refine congrArg Host.Outcome.next ((h.rxAll_of_notMem hno).trans ?_)
  rw [servoBytes_length ck hlen]

/-- Settles O31: the two branches of position 0. -/
theorem queryLengthByte : Obligations.QueryLengthByte := by
  intro b s h
  refine ⟨?_, fun hb => congrArg _ (h.rx_of_ne hb)⟩
  rintro rfl
  exact congrArg _ h.rx_qlen

/-- Settles O32: position 1 has one branch. -/
theorem queryCommandByte : Obligations.QueryCommandByte := by
  intro b s hstall hls hre hn
  refine congrArg Host.Outcome.next ((rx_of_hdl hstall hls hre b).trans ?_)
  simp only [rxQuery, hn, rxCommand]

/-! ### Queries that are dropped (R142, R143, R146) -/

/-- A query for sensor index `i` is dropped with `e` whatever its command: for index 0, or for a sensor that is not installed
(R143, D11). -/
def Unaddressed (cfg : ConfigRec) (i : BitVec 4) (e : ErrorKind) : Prop :=
  (i = 0 ∧ e = .idx0) ∨ (i ≠ 0 ∧ sensorType cfg (i.toNat - 1) = 0 ∧ e = .absent)

section Dropped

variable {c : Byte} {w : Word16} {s : State}

/-- Index and existence are tested before the command (R143, R225). -/
theorem queryExec_unaddressed {e : ErrorKind} (h : Unaddressed s.cfg (cmdIndex c) e) :
    queryExec c w s = dropped e s := by
  rcases h with ⟨hzero, rfl⟩ | ⟨hi, habsent, rfl⟩
  · rw [queryExec, if_pos (by rw [hzero]; rfl)]
    rfl
  · rw [queryExec, if_neg (index_ne_zero hi)]
    exact if_pos habsent

/-- A command nibble that is none of the three (R143). -/
theorem queryExec_unknown (hi : cmdIndex c ≠ 0) (hsensor : sensorType s.cfg ((cmdIndex c).toNat - 1) ≠ 0)
    (hprobe : cmdOp c ≠ Config.cmdProbe) (htype : cmdOp c ≠ Config.cmdType) (hvalue : cmdOp c ≠ Config.cmdValue) :
    queryExec c w s = dropped .cmd s := by
  rw [queryExec, if_neg (index_ne_zero hi)]
  simp only [if_neg hsensor, if_neg hprobe, if_neg htype, if_neg hvalue]
  rfl

/-- The width is tested before the acquisition (R146, D12). -/
theorem valueQuery_of_width {k : Fin 3} {t : Word16} (hwidth : ¬ (typeWidth t = 2 ∨ typeWidth t = 4)) :
    valueQuery c k t s = dropped .width s := by
  rw [valueQuery, if_neg hwidth]
  rfl

/-- A query row with a wrong trailer (R142). -/
theorem rxAll_query_mismatch {op i : BitVec 4} {ck : Word16} (h : ListensForQuery s) (hck : ck ≠ queryChecksum op i) :
    rxAll (queryBytes op i ck) s = dropped .cksum (queryParsed (cmdByte op i) (lowByte ck) s) := by
  rw [rxAll_query op i ck s h, if_neg hck]
  rfl

/-- A verified query row for index 0 or for an absent sensor (R143). -/
theorem rxAll_query_unaddressed (op : BitVec 4) {i : BitVec 4} {e : ErrorKind} (h : ListensForQuery s)
    (he : Unaddressed s.cfg i e) :
    rxAll (queryBytes op i (queryChecksum op i)) s =
      dropped e (queryParsed (cmdByte op i) (lowByte (queryChecksum op i)) s) := by
  rw [rxAll_verified op h, queryExec_unaddressed (by simpa using he)]

end Dropped

/-- Settles O33: the verified query is executed down to the last branch of R143. -/
theorem unknownCommandDropped : Obligations.UnknownCommandDropped := by
  intro b s hstall hls hre hn hck hi hsensor hprobe htype hvalue
  refine congrArg Host.Outcome.next ((rx_of_hdl hstall hls hre b).trans ((rxQuery_verified hn hck).trans ?_))
  exact queryExec_unknown hi hsensor hprobe htype hvalue

/-- Settles O34: the three query rows end in the trailer comparison. -/
theorem queryTrailerMismatchDropped : Obligations.QueryTrailerMismatchDropped :=
  fun _ _ _ h => ⟨fun hck => congrArg _ (rxAll_query_mismatch h hck), fun hck => congrArg _ (rxAll_query_mismatch h hck),
    fun hck => congrArg _ (rxAll_query_mismatch h hck)⟩

/-- Settles O35: index and existence for the three query rows, the width for the Value row. -/
theorem unanswerableQueryDropped : Obligations.UnanswerableQueryDropped := by
  intro s i h
  refine ⟨fun e he => ⟨congrArg _ (rxAll_query_unaddressed 0x8 h he), congrArg _ (rxAll_query_unaddressed 0x9 h he),
    congrArg _ (rxAll_query_unaddressed 0xA h he)⟩, fun hi hsensor hwidth2 hwidth4 => ?_⟩
  obtain ⟨hk, -, -⟩ := sensorType_ne_zero hsensor
  have hindex : (cmdIndex (cmdByte 0xA i)).toNat = i.toNat - 1 + 1 := by
    have := index_ne_zero hi
    rw [cmdIndex_cmdByte]
    omega
  refine congrArg Host.Outcome.next ((rxAll_verified 0xA h).trans ?_)
  rw [queryExec_value (k := ⟨i.toNat - 1, hk⟩) (s := queryParsed _ _ s) hindex hsensor (cmdOp_cmdByte 0xA i)]
  exact valueQuery_of_width (not_or.mpr ⟨hwidth2, hwidth4⟩)

/-! ### Queries that are answered (R144, R145) -/

/-- Settles O36: the answer of `exec_qProbe_answered`, its four bytes written out. -/
theorem probeQueryAnswered : Obligations.ProbeQueryAnswered :=
  fun _ _ => exec_qProbe_answered

/-- Settles O37: the answer of `exec_qType_answered` as a self-checked frame. -/
theorem typeQueryAnswered : Obligations.TypeQueryAnswered := by
  intro s i h hi hsensor
  rw [exec_qType_answered h hi hsensor, responseBytes_eq]
  rfl

/-! ### EV_TXE, EV_TC and EV_TMO (R149 to R151) -/

section Enabled

variable {s : State}

theorem txe_of_hdt (hstall : s.stall = none) (hls : s.ls = .hdt) (hen : s.linectl.txeie = true) (hpos : s.rb.pos < 8) :
    txe s = .next (txeHandler s.rb.data[s.rb.pos] s) := by
  simp [txe, idle, txeEnabled, hstall, hls, hen, hpos]

theorem tc_of_hdtr (hstall : s.stall = none) (hls : s.ls = .hdtr) (hen : s.linectl.tcie = true) :
    tc s = tcHandler s := by
  simp [tc, idle, tcEnabled, hstall, hls, hen]

theorem tmo_of_armed (hstall : s.stall = none) (harmed : s.tmrArmed = true) : tmo s = tmoHandler s := by
  simp [tmo, idle, tmoEnabled, hstall, harmed]

end Enabled

/-- Settles O45: the two branches of the handler, from the line control of HDT. -/
theorem txePushesOneByte : Obligations.TxePushesOneByte := by
  intro s hpos hstall hls hline
  have htxe := txe_of_hdt hstall hls (by rw [hline]; rfl) hpos
  rw [txeHandler_eq] at htxe
  refine ⟨fun hmore => htxe.trans ?_, fun hlast => htxe.trans ?_⟩
  · rw [if_neg hmore]
  · rw [if_pos hlast, hline]
    rfl

/-- Settles O46: the handler's three line writes, from the line control of HDTR. -/
theorem tcReturnsToListening : Obligations.TcReturnsToListening := by
  intro s hstall hls hline
  refine congrArg Host.Outcome.next ((tc_of_hdtr hstall hls (by rw [hline]; rfl)).trans ?_)
  rw [tcHandler_eq, hline]
  rfl

/-- Settles O47: the handler looks at no link state. -/
theorem tmoRevertsToFullDuplex : Obligations.TmoRevertsToFullDuplex :=
  fun s hstall harmed => congrArg Host.Outcome.next ((tmo_of_armed hstall harmed).trans (tmoHandler_eq s))

/-! ### Every change of the link state (R153) -/

/-- FDL to HDL: the accepted frame is mixed, the timer armed and the line half-duplex (R126). -/
def EntersHalfDuplex (s t : State) : Prop :=
  t.ls = .hdl ∧ t.wdgOut = s.wdgOut ++ [.kick] ∧ t.tmrArmed = true ∧ t.linectl.hd = true

/-- HDL to HDT: an IDLE goes out and the line is turned round (R148). -/
def TurnsRound (s t : State) : Prop :=
  t.ls = .hdt ∧ t.wireOut = s.wireOut ++ [.idle] ∧ t.linectl.re = false ∧ t.linectl.te = true ∧ t.linectl.txeie = true

theorem servoAccept_entersHalfDuplex (s : State) : EntersHalfDuplex s (servoAccept s) := by
  obtain ⟨hkick, -⟩ := servoAccept_kick s
  exact ⟨by rw [servoAccept_eq], hkick, by rw [servoAccept_eq], by rw [servoAccept_eq]⟩

/-- `StartTx()` turns the line round, from any state that has sent as much as `s`. -/
theorem startTx_turnsRound {s u : State} (h : u.wireOut = s.wireOut) : TurnsRound s (startTx u) := by
  refine ⟨?_, by rw [startTx_wireOut, h], ?_⟩ <;> rw [startTx_eq]
  exact ⟨rfl, rfl, rfl⟩

/-- A byte received in FDL changes the link state only as the last byte of an attempt, with the right trailer (R125). -/
theorem rxServo_transition (b : Byte) (s : State) :
    (rxServo b s).ls = s.ls ∨
    (s.fa.sync = true ∧ 29 ≤ s.fa.n ∧ ¬ (s.fa.prev = Config.hdr0 ∧ b = Config.hdr1) ∧ pair s.fa.prev b = s.fa.ck ∧
      EntersHalfDuplex s (rxServo b s)) := by
  rcases rxServo_cases b s with
    ⟨-, -, h⟩ | ⟨hno, ⟨-, h⟩ | ⟨-, -, h⟩ | ⟨-, -, -, h⟩ | ⟨-, -, -, -, h⟩ | ⟨hsync, hodd, hpos, hck, h⟩⟩ <;> rw [h]
  case inr.inr.inr.inr.inr => exact .inr ⟨hsync, by omega, hno, hck, servoAccept_entersHalfDuplex _⟩
  all_goals exact .inl rfl

/-- A verified query changes the link state only where it is answered, and only an answerable one is (R143, R146). -/
theorem queryExec_transition (c : Byte) (w : Word16) (s : State) :
    (queryExec c w s).ls = s.ls ∨ (Answerable s.cfg c ∧ TurnsRound s (queryExec c w s)) := by
  by_cases hc : Answerable s.cfg c
  · rcases queryExec_cases c w s with
      ⟨e, -, h⟩ | ⟨-, bs, -, h⟩ | ⟨-, k, -, -, adc, draws, h | ⟨raw, -, bs, -, h⟩⟩ <;> rw [h]
    · exact .inl rfl
    · exact .inr ⟨hc, startTx_turnsRound rfl⟩
    · exact .inl rfl
    · refine .inr ⟨hc, startTx_turnsRound ?_⟩
      rw [wireOut_congr (fillResponse_io bs _), wireOut_of_io rfl]
      simp
  · obtain ⟨e, h⟩ := queryExec_of_not_answerable (w := w) hc
    exact .inl (by rw [h]; rfl)

/-- A byte received in HDL changes the link state only as the last byte of a verified, answerable query (R142, R143). -/
theorem rxQuery_transition (b : Byte) (s : State) :
    (rxQuery b s).ls = s.ls ∨
    (s.fa.n = 3 ∧ pair s.fa.prev b = s.fa.ck ∧ Answerable s.cfg s.qcmd ∧ TurnsRound s (rxQuery b s)) := by
  rcases rxQuery_cases b s with
    ⟨-, -, h⟩ | ⟨-, -, h⟩ | ⟨-, h⟩ | ⟨-, h⟩ | ⟨hn, hck, h⟩ | ⟨-, -, h⟩ | ⟨-, h⟩ <;> rw [h]
  case inr.inr.inr.inr.inl =>
    exact (queryExec_transition s.qcmd s.fa.ck { s with fa := { s.fa with n := 0 } }).imp_right fun ht => ⟨hn, hck, ht⟩
  all_goals exact .inl rfl

theorem txe_transition {s t : State} (h : txe s = .next t) :
    t.ls = s.ls ∨ (s.ls = .hdt ∧ s.rb.pos + 1 = s.rb.len ∧ t.ls = .hdtr ∧ t.linectl.txeie = false ∧
      t.linectl.tcie = true) := by
  rcases txe_cases s with he | ⟨-, -, hls, ⟨-, he⟩ | ⟨_, he⟩⟩ <;> cases he.symm.trans h
  · exact .inl rfl
  · rw [txeHandler_eq]
    split
    case isTrue hlast => exact .inr ⟨hls, hlast, rfl, rfl, rfl⟩
    case isFalse => exact .inl rfl

theorem tc_transition (s : State) :
    (tc s).ls = s.ls ∨ (s.ls = .hdtr ∧ (tc s).ls = .hdl ∧ (tc s).linectl.te = false ∧ (tc s).linectl.re = true ∧
      (tc s).linectl.tcie = false) := by
  rcases tc_cases s with h | ⟨-, -, hls, h⟩ <;> rw [h]
  · exact .inl rfl
  · rw [tcHandler_eq]
    exact .inr ⟨hls, rfl, rfl, rfl, rfl⟩

theorem tmo_transition (s : State) :
    (tmo s).ls = s.ls ∨ (s.tmrArmed = true ∧ (tmo s).ls = .fdl ∧ (tmo s).linectl = lineRow .fdl) := by
  rcases tmo_cases s with h | ⟨-, harmed, h⟩ <;> rw [h]
  · exact .inl rfl
  · rw [tmoHandler_eq]
    exact .inr ⟨harmed, rfl, rfl⟩

/-- Settles O15: event by event, from the transition each handler can make. -/
theorem linkStateTransitions : Obligations.LinkStateTransitions := by
  refine ⟨fun s t h => ?_, fun b s t h => ?_, fun s t => txe_transition, fun s t h => ?_, fun s t h => ?_⟩ <;> cases h
  · rfl
  · rcases rx_cases b s with he | ⟨-, -, hls, he⟩ | ⟨-, -, hls, he⟩ <;> rw [he]
    · exact .inl rfl
    · refine (rxServo_transition b s).imp_right fun ⟨hsync, hlast, hno, hck, henters⟩ => .inl ?_
      exact ⟨hls, hsync, hlast, fun hinv => Nat.le_antisymm (hinv.servoPosition hls) hlast, hno, hck, henters⟩
    · exact (rxQuery_transition b s).imp_right fun ht => .inr ⟨hls, ht⟩
  · exact tc_transition s
  · exact tmo_transition s

end Sys2Proof.Machine

/-! ## Proofs: the mixer (43_mixer)

When the actuator registers move, and what `Mix()` computes from channels to outputs: switches, valve function, ramp,
duties and digital outputs. -/

namespace Sys2Proof.Machine

/-! ### The actuator registers move only with a kick (R191, R224) -/

theorem SameActuators.refl (s : State) : SameActuators s s := ⟨rfl, rfl, rfl, rfl, rfl, rfl⟩

theorem SameActuators.trans {s t u : State} (hst : SameActuators s t) (htu : SameActuators t u) : SameActuators s u := by
  obtain ⟨hcvs, hramp, hduty, hdout, hpump, hsel⟩ := hst
  obtain ⟨hcvs', hramp', hduty', hdout', hpump', hsel'⟩ := htu
  exact ⟨hcvs'.trans hcvs, hramp'.trans hramp, hduty'.trans hduty, hdout'.trans hdout, hpump'.trans hpump,
    hsel'.trans hsel⟩

/-- A byte received in FDL leaves the watchdog and the actuators alone, or runs the acceptance sequence (R121 to R126). -/
theorem rxServo_actuators (b : Byte) (s : State) :
    ((rxServo b s).wdgOut = s.wdgOut ∧ SameActuators s (rxServo b s)) ∨
    rxServo b s = servoAccept { s with fa := { s.fa with sync := false, n := 0, prev := b } } := by
  rcases rxServo_cases b s with
    ⟨-, -, h⟩ | ⟨-, ⟨-, h⟩ | ⟨-, -, h⟩ | ⟨-, -, -, h⟩ | ⟨-, -, -, -, h⟩ | ⟨-, -, -, -, h⟩⟩
  case inr.inr.inr.inr.inr => exact .inr h
  all_goals exact .inl (by rw [h]; exact ⟨rfl, .refl s⟩)

theorem startTx_fill_sameActuators (bs : List Byte) (s : State) : SameActuators s (startTx (fillResponse bs s)) := by
  rw [startTx_fill_eq]
  exact .refl s

/-- A verified query moves no actuator, dropped, answered or stalled (R143 to R146). -/
theorem queryExec_sameActuators (c : Byte) (w : Word16) (s : State) : SameActuators s (queryExec c w s) := by
  rcases queryExec_cases c w s with
    ⟨e, -, h⟩ | ⟨-, bs, -, h⟩ | ⟨-, k, -, -, adc, draws, h | ⟨raw, -, bs, -, h⟩⟩ <;> rw [h]
  · exact .refl s
  · exact startTx_fill_sameActuators bs s
  · exact .refl s
  · exact startTx_fill_sameActuators bs _

theorem rxQuery_sameActuators (b : Byte) (s : State) : SameActuators s (rxQuery b s) := by
  rcases rxQuery_cases b s with
    ⟨-, -, h⟩ | ⟨-, -, h⟩ | ⟨-, h⟩ | ⟨-, h⟩ | ⟨-, -, h⟩ | ⟨-, -, h⟩ | ⟨-, h⟩ <;> rw [h]
  case inr.inr.inr.inr.inl => exact queryExec_sameActuators s.qcmd s.fa.ck { s with fa := { s.fa with n := 0 } }
  all_goals exact .refl s

theorem txe_sameActuators {s t : State} (h : txe s = .next t) : SameActuators s t := by
  rcases txe_cases s with he | ⟨-, -, -, ⟨-, he⟩ | ⟨_, he⟩⟩ <;> cases he.symm.trans h
  · exact .refl s
  · rw [txeHandler_eq]
    split <;> exact .refl s

theorem tc_sameActuators (s : State) : SameActuators s (tc s) := by
  rcases tc_cases s with h | ⟨-, -, -, h⟩ <;> rw [h]
  · exact .refl s
  · rw [tcHandler_eq]
    exact .refl s

theorem tmo_sameActuators (s : State) : SameActuators s (tmo s) := by
  rcases tmo_cases s with h | ⟨-, -, h⟩ <;> rw [h]
  · exact .refl s
  · rw [tmoHandler_eq]
    exact .refl s

/-- `t` has at least one kick more than `s`, or as many and the same actuators. Unlike the bare implication of R224, this
carries over a sequence of events. -/
def MovesOnlyWithKick (s t : State) : Prop :=
  s.wdgOut.length < t.wdgOut.length ∨ (t.wdgOut = s.wdgOut ∧ SameActuators s t)

theorem MovesOnlyWithKick.trans {s t u : State} (hst : MovesOnlyWithKick s t) (htu : MovesOnlyWithKick t u) :
    MovesOnlyWithKick s u := by
  rcases hst with hkick | ⟨hwdg, hsame⟩
  · rcases htu with hkick' | ⟨hwdg', -⟩
    · exact .inl (hkick.trans hkick')
    · exact .inl (by rw [hwdg']; exact hkick)
  · rcases htu with hkick' | ⟨hwdg', hsame'⟩
    · exact .inl (by rw [← hwdg]; exact hkick')
    · exact .inr ⟨hwdg'.trans hwdg, hsame.trans hsame'⟩

/-- Of what a received byte can do, only the acceptance sequence writes actuators, and it kicks (R126). -/
theorem rx_movesOnlyWithKick (b : Byte) (s : State) : MovesOnlyWithKick s (rx b s) := by
  rcases rx_cases b s with h | ⟨-, -, -, h⟩ | ⟨-, -, -, h⟩ <;> rw [h]
  · exact .inr ⟨rfl, .refl s⟩
  · rcases rxServo_actuators b s with hsame | haccept
    · exact .inr hsame
    · obtain ⟨hkick, -⟩ := servoAccept_kick { s with fa := { s.fa with sync := false, n := 0, prev := b } }
      rw [haccept]
      exact .inl (by rw [hkick, List.length_append]; exact Nat.lt_succ_self _)
  · exact .inr ⟨rxQuery_wdgOut b s, rxQuery_sameActuators b s⟩

/-- Settles O12: every event but EV_RST moves actuators only with a kick, kicks only add up along an instruction's events,
and as many kicks as before means there was none. -/
theorem actuatorsMoveOnlyWithKick : Obligations.ActuatorsMoveOnlyWithKick := by
  intro i s t hi hexec hwdg
  have hmoves : MovesOnlyWithKick s t :=
    exec_induction (P := MovesOnlyWithKick s) (fun b u hu => hu.trans (rx_movesOnlyWithKick b u))
      (fun _ _ hu hv => hu.trans (.inr ⟨txe_wdgOut hv, txe_sameActuators hv⟩))
      (fun u hu => hu.trans (.inr ⟨tc_wdgOut u, tc_sameActuators u⟩))
      (fun u hu => hu.trans (.inr ⟨tmo_wdgOut u, tmo_sameActuators u⟩)) hi (.inr ⟨rfl, .refl s⟩) hexec
  rcases hmoves with hkick | ⟨-, hsame⟩
  · rw [hwdg] at hkick
    exact absurd hkick (Nat.lt_irrefl _)
  · exact hsame

/-! ### Switches and the valve function (R171 to R176) -/

/-- Settles O53: the two strict comparisons, of which at most one holds. -/
theorem switchPositions : Obligations.SwitchPositions := by
  intro cfg v hle
  unfold switch3
  refine ⟨fun hlow => if_pos hlow, fun hhigh => ?_, fun hlo hhi => ?_⟩
  · rw [if_neg (by omega), if_pos hhigh]
  · rw [if_neg (by omega), if_neg (by omega)]

/-- A list that never falls is sorted. -/
theorem nondecreasing_pairwise {l : List Nat} (h : nondecreasing l = true) : l.Pairwise (· ≤ ·) := by
  rw [← List.isChain_iff_pairwise]
  induction l with
  | nil => exact .nil
  | cons a rest ih =>
    cases rest with
    | nil => exact .singleton a
    | cons b rest =>
      simp only [nondecreasing, Bool.and_eq_true, decide_eq_true_eq] at h
      obtain ⟨hab, hrest⟩ := h
      exact .cons_cons hab (ih hrest)

/-- A curve table read with its last entry held on never falls (R176). -/
theorem table_le_table {l : List Nat} (h : nondecreasing l = true) {i j : Nat} (hij : i ≤ j) :
    l.getD i (l.getLastD 0) ≤ l.getD j (l.getLastD 0) := by
  have hsorted := nondecreasing_pairwise h
  by_cases hi : i < l.length
  · have hlast : l.getLastD 0 = l[l.length - 1] := by
      rw [List.getLastD_eq_getLast?, List.getLast?_eq_getElem?, List.getElem?_eq_getElem (by omega), Option.getD_some]
    by_cases hj : j < l.length
    · rw [List.getD_eq_getElem _ _ hi, List.getD_eq_getElem _ _ hj]
      exact hsorted.rel_get_of_le hij
    · rw [List.getD_eq_getElem _ _ hi, List.getD_eq_default _ _ (by omega), hlast]
      exact hsorted.rel_get_of_le (a := ⟨i, hi⟩) (b := ⟨l.length - 1, by omega⟩) (Nat.le_sub_one_of_lt hi)
  · rw [List.getD_eq_default _ _ (by omega), List.getD_eq_default _ _ (by omega)]

section Valve

variable {cfg : ConfigRec}

/-- What R6 asks of the valve curve. -/
theorem valve_of_decodeOk (h : decodeOk cfg = true) :
    1 ≤ cfg.valveMin ∧ cfg.valveMin < cfg.valveKnee ∧ ∀ l, cfg.vcurve = .table l → nondecreasing l = true := by
  simp only [decodeOk, Bool.and_eq_true, decide_eq_true_eq] at h
  obtain ⟨⟨⟨⟨-, hmin⟩, hknee⟩, hcurve⟩, -⟩ := h
  exact ⟨hmin, hknee, fun l hl => by simpa only [hl] using hcurve⟩

theorem vcurve_of_lt {m : Nat} (hm : m < cfg.valveMin) : vcurve cfg m = 0 := if_pos hm

theorem vcurve_twoSlope (hc : cfg.vcurve = .twoSlope) {m : Nat} (hm : cfg.valveMin ≤ m) :
    vcurve cfg m =
      if m < cfg.valveKnee then 1 + (m - cfg.valveMin) / 2 else m - (cfg.valveMin + cfg.valveKnee) / 2 := by
  rw [vcurve, if_neg (by omega), hc]

theorem vcurve_table {l : List Nat} (hc : cfg.vcurve = .table l) {m : Nat} (hm : cfg.valveMin ≤ m) :
    vcurve cfg m = 1 + l.getD (m - cfg.valveMin) (l.getLastD 0) := by
  rw [vcurve, if_neg (by omega), hc]

theorem vcurve_pos (h : decodeOk cfg = true) {m : Nat} (hm : cfg.valveMin ≤ m) : 0 < vcurve cfg m := by
  obtain ⟨-, hknee, -⟩ := valve_of_decodeOk h
  cases hc : cfg.vcurve with
  | twoSlope =>
    rw [vcurve_twoSlope hc hm]
    split <;> omega
  | table l =>
    rw [vcurve_table hc hm]
    omega

theorem vcurve_eq_zero_iff (h : decodeOk cfg = true) (m : Nat) : vcurve cfg m = 0 ↔ m < cfg.valveMin := by
  refine ⟨fun hzero => ?_, vcurve_of_lt⟩
  by_contra hm
  exact (vcurve_pos h (Nat.le_of_not_lt hm)).ne' hzero

/-- The two slopes meet at the knee without a fall: the one ends at half the distance of the thresholds, rounded up, where
the other begins (R176, D27). -/
theorem vcurve_le_vcurve (h : decodeOk cfg = true) {m n : Nat} (hmn : m ≤ n) : vcurve cfg m ≤ vcurve cfg n := by
  obtain ⟨-, hknee, htable⟩ := valve_of_decodeOk h
  by_cases hm : m < cfg.valveMin
  · rw [vcurve_of_lt hm]
    exact Nat.zero_le _
  · have hm' : cfg.valveMin ≤ m := Nat.le_of_not_lt hm
    cases hc : cfg.vcurve with
    | twoSlope =>
      rw [vcurve_twoSlope hc hm', vcurve_twoSlope hc (hm'.trans hmn)]
      split <;> split <;> omega
    | table l =>
      rw [vcurve_table hc hm', vcurve_table hc (hm'.trans hmn)]
      exact Nat.add_le_add_left (table_le_table (htable l hc) (Nat.sub_le_sub_right hmn _)) 1

/-- The valve function on the trimmed, centred value: the raw offset, or its sign on the curve of its magnitude (R173,
R174). -/
theorem valve_centred (hmin : 1 ≤ cfg.valveMin) (trim e : Int) (dm : Bool) :
    valve cfg (1500 + trim + e) trim dm = if dm then e else e.sign * vcurve cfg e.natAbs := by
  have hoffset : 1500 + trim + e - trim - Config.center = e := by
    unfold Config.center
    omega
  rw [valve, hoffset]
  rcases Int.lt_trichotomy e 0 with hneg | rfl | hpos
  · simp [hneg, Int.sign_eq_neg_one_of_neg hneg]
  · simp [vcurve_of_lt hmin]
  · simp [Int.sign_eq_one_of_pos hpos, Int.not_lt.mpr hpos.le]

end Valve

/-- Settles O54: the curve is positive from `VALVE_MIN` on, and neither of its forms falls. -/
theorem valveCurveShape : Obligations.ValveCurveShape :=
  fun _ h => ⟨vcurve_eq_zero_iff h, fun _ _ => vcurve_le_vcurve h, fun hc _ => vcurve_twoSlope hc⟩

/-- Settles O55: the sign and the magnitude of the offset, on a curve that is 0 exactly inside the deadband. -/
theorem valveDecode : Obligations.ValveDecode := by
  intro cfg trim e h
  obtain ⟨hmin, -, -⟩ := valve_of_decodeOk h
  have hodd : valve cfg (1500 + trim - e) trim false = -e.sign * vcurve cfg e.natAbs := by
    rw [sub_eq_add_neg, valve_centred hmin, if_neg Bool.false_ne_true, Int.sign_neg, Int.natAbs_neg]
  rw [hodd, valve_centred hmin, valve_centred hmin, if_pos rfl, if_neg Bool.false_ne_true]
  refine ⟨rfl, by ring, ?_, fun he => ?_⟩
  · rw [mul_eq_zero, Int.sign_eq_zero_iff_zero, Int.natCast_eq_zero, vcurve_eq_zero_iff h]
    omega
  · rcases he.eq_or_lt with rfl | hpos
    · simp [vcurve_of_lt hmin]
    · rw [Int.sign_eq_one_of_pos hpos, one_mul]

/-! ### The ramp (R182 to R184) -/

/-- The reference snap: a centred target from past the midpoint (R183, D30). -/
theorem snaps_centred {cfg : ConfigRec} (hc : cfg.snap = .centred) (target prev : Int) :
    snaps cfg target prev = true ↔ target.natAbs < cfg.rampDb ∧ cfg.rampMid < prev.natAbs := by
  simp [snaps, hc]

/-- Settles O56: the four outcomes of a ramp step. -/
theorem rampLimitedAndNoOvershoot : Obligations.RampLimitedAndNoOvershoot := by
  intro cfg target prev step
  refine ⟨fun hsnap => ?_, fun hsnap => ?_, fun hc => snaps_centred hc target prev⟩
  · rw [rampTo, if_pos hsnap]
  · rcases rampTo_cases cfg target prev step with ⟨hsnap', -⟩ | ⟨-, ⟨hfar, h⟩ | ⟨hfar, h⟩ | ⟨hlo, hhi, h⟩⟩
    · rw [hsnap] at hsnap'
      exact absurd hsnap' Bool.false_ne_true
    all_goals
      rw [h]
      omega

/-- A ramp step gets nearer to its target by at least one unit, until it is there. -/
theorem rampTo_nearer (cfg : ConfigRec) (target prev : Int) {step : Nat} (hstep : 1 ≤ step) :
    (target - rampTo cfg target prev step).natAbs ≤ (target - prev).natAbs - 1 := by
  rcases rampTo_cases cfg target prev step with ⟨-, h⟩ | ⟨-, ⟨hfar, h⟩ | ⟨hfar, h⟩ | ⟨-, -, h⟩⟩ <;> rw [h] <;> omega

theorem rampRun_nearer (cfg : ConfigRec) (target prev : Int) {step : Nat} (hstep : 1 ≤ step) (n : Nat) :
    (target - rampRun cfg target step prev n).natAbs ≤ (target - prev).natAbs - n := by
  induction n with
  | zero => exact Nat.le_refl _
  | succ n ih =>
    have hnext := rampTo_nearer cfg target (rampRun cfg target step prev n) hstep
    rw [rampRun]
    omega

/-- Settles O57: after as many invocations as units, no distance is left. -/
theorem rampReachesTarget : Obligations.RampReachesTarget := by
  intro cfg target prev step n hstep hn
  have hnearer := rampRun_nearer cfg target prev hstep n
  omega

/-! ### What a mix computes (R172 to R190) -/

/-- The switch that `DRIVE_SW` names gives the mode (R172). -/
theorem driveMode_eq (cfg : ConfigRec) (cvs : Vector Int 14) :
    driveMode cfg cvs = if cfg.driveSw = .ch6 then switch3 cfg cvs[6] else switch3 cfg cvs[7] := by
  unfold driveMode
  cases cfg.driveSw <;> rfl

/-- The other switch is the auxiliary one (R172). -/
theorem auxSwitch_eq (cfg : ConfigRec) (cvs : Vector Int 14) :
    auxSwitch cfg cvs = if cfg.driveSw = .ch6 then switch3 cfg cvs[7] else switch3 cfg cvs[6] := by
  unfold auxSwitch
  cases cfg.driveSw <;> rfl

/-- RC's formulas, mode by mode (R181). -/
theorem mixTargets_rc {cfg : ConfigRec} (hmixf : cfg.mixf = rc.mixf) (mode : Fin 3) (v : MixIn) :
    mixTargets cfg mode v =
      if mode = 0 then ⟨v.vB.natAbs + v.vM.natAbs + v.vS.natAbs, v.d0, v.d1, v.d2, v.vB, v.vM, v.vS⟩
      else if mode = 1 then ⟨v.vB.natAbs + v.vM.natAbs, v.d0 + v.vS, v.d0 - v.vS, v.d2, v.vB, v.vM, 0⟩
      else ⟨v.vB.natAbs + v.vS.natAbs, v.d0 + v.vM, v.d0 - v.vM, v.d2, v.vB, 0, v.vS⟩ := by
  rw [mixTargets, hmixf]
  match mode with
  | 0 => rfl
  | 1 => rfl
  | 2 => rfl

theorem pumpDuty_eq (cfg : ConfigRec) (r : Int) :
    pumpDuty cfg r =
      if r = 0 then (cfg.pumpOffDuty : Int) else clamp (1500 + cfg.pumpKick + r) cfg.pumpDutyMin cfg.pumpDutyMax := by
  by_cases hr : r = 0 <;> simp [pumpDuty, hr, Config.center]

/-- The truth table of a function of `aux` and `PUMP_ACTIVE` holds that function (R190). -/
theorem pinTable_pinIndex (f : Nat → Bool → Bool) (mode aux : Fin 3) (active : Bool) :
    (pinTable f)[(pinIndex mode aux active).val] = f aux active := by
  have hbit : active.toNat < 2 := active.toNat_lt
  have haux : (6 * mode.val + 2 * aux.val + active.toNat) % 6 / 2 = aux := by omega
  have hactive : (6 * mode.val + 2 * aux.val + active.toNat) % 2 = active.toNat := by omega
  simp only [pinTable, pinIndex, Vector.getElem_ofFn, haux, hactive]
  cases active <;> rfl

/-- RC's three tables (R190). -/
theorem rc_doutf :
    rc.doutf = #v[pinTable fun aux _ => 1 ≤ aux, pinTable fun aux _ => aux == 2, pinTable fun _ active => active] := rfl

/-- RC's digital outputs (R190). -/
theorem doutLevel_rc {cfg : ConfigRec} (hdoutf : cfg.doutf = rc.doutf) (mode aux : Fin 3) (active : Bool) :
    (Vector.ofFn fun n => doutLevel cfg n mode aux active) = #v[decide (1 ≤ aux), decide (aux = 2), active] := by
  ext i hi
  have hi : i = 0 ∨ i = 1 ∨ i = 2 := by omega
  rcases hi with rfl | rfl | rfl
  · simp [doutLevel, hdoutf, rc_doutf, pinTable_pinIndex, Fin.le_def]
  · simp [doutLevel, hdoutf, rc_doutf, pinTable_pinIndex, Fin.ext_iff, beq_eq_decide]
  · simp [doutLevel, hdoutf, rc_doutf, pinTable_pinIndex]

/-- The compare register `n` holds the duty of the output that `PWM_MAP` places there (R188). -/
theorem mix_duty_getElem (s : State) (n : Fin 7) :
    (mix s).duty[n] = dutyWord (outputDuty s.cfg (mixRamp s) (mixOut s) s.cfg.pwmMap[n]) := by
  simp only [mix_duty, Fin.getElem_fin, Vector.getElem_ofFn, registerDuty]

/-- Settles O58: each register of `mix_eq`, its value traced back to the switches, the sticks and the ramp. -/
theorem mixWritesOutputs : Obligations.MixWritesOutputs := by
  intro s c mode aux v m r limited
  have hmode : mixMode s = mode := driveMode_eq c s.cvs
  have haux : auxSwitch s.cfg s.cvs = aux := auxSwitch_eq c s.cvs
  have hout : mixOut s = m := by
    rw [mixOut, hmode]
    rfl
  have hramp : r = mixRamp s := mix_ramp s
  have hpin : mixPin s = fun n => doutLevel c n mode aux (mix s).pumpActive := by
    funext n
    rw [mixPin, hmode, haux, mix_pumpActive]
  refine ⟨(mix_driveSel s).trans hmode, fun hmixf => mixTargets_rc hmixf mode v, ?_, ?_, fun n => ?_, fun n => ?_,
    fun hdoutf => ?_, ?_, ?_, ?_, ?_⟩
  · rw [hramp, mixRamp, rampAll, hout]
  · rw [hramp, mix_pumpActive]
  · rw [mix_duty_getElem, hout, ← hramp, dutyWord]
    congr 1
    unfold outputDuty
    cases c.pwmMap[n] with
    | pump => exact pumpDuty_eq c r[0]
    | _ => rfl
  · simp only [mix_dout, hpin, Fin.getElem_fin, Vector.getElem_ofFn]
  · rw [mix_dout, hpin]
    exact doutLevel_rc hdoutf mode aux _
  · rw [wdgOut_of_io (mix_io s), mixIo_wdg]
  · rw [wireOut_of_io (mix_io s), mixIo_wire, List.append_nil]
  · rw [mix_io, mixIo]
    simp
  · rw [mix_eq]

/-! ### Duties within their clamps (R185 to R188) -/

theorem dutyWord_toNat {d : Nat} (h : d < 65536) : (dutyWord d).toNat = d := by
  rw [dutyWord, BitVec.ofInt_natCast, BitVec.toNat_ofNat, Nat.mod_eq_of_lt h]

/-- A clamped duty fits the compare register, so the clamps bound what the register holds. -/
theorem dutyWord_clamp {lo hi : Nat} (hle : lo ≤ hi) (hhi : hi < 65536) (v : Int) :
    lo ≤ (dutyWord (clamp v lo hi)).toNat ∧ (dutyWord (clamp v lo hi)).toNat ≤ hi := by
  obtain ⟨hlow, hhigh⟩ := clamp_bounds (v := v) (Int.ofNat_le.mpr hle)
  obtain ⟨d, hd⟩ := Int.eq_ofNat_of_zero_le (le_trans (Int.natCast_nonneg lo) hlow)
  rw [hd] at hlow hhigh ⊢
  rw [dutyWord_toNat (by omega)]
  exact ⟨Int.ofNat_le.mp hlow, Int.ofNat_le.mp hhigh⟩

/-- The limits of a duty are in order and fit the compare register. -/
theorem limits_of_clampsOk {lo hi : Nat} (h : clampsOk lo hi = true) : lo ≤ hi ∧ hi < 65536 := by
  simp only [clampsOk, Bool.and_eq_true, decide_eq_true_eq] at h
  omega

/-- The duty limits of a legal configuration: valves, drives, pump, and the pump's off duty (R6;
notes/assumptions/25.md). -/
theorem limits_of_outputsOk {cfg : ConfigRec} (h : outputsOk cfg = true) :
    (cfg.valveDutyMin ≤ cfg.valveDutyMax ∧ cfg.valveDutyMax < 65536) ∧
    (cfg.drvDutyMin ≤ cfg.drvDutyMax ∧ cfg.drvDutyMax < 65536) ∧
    (cfg.pumpDutyMin ≤ cfg.pumpDutyMax ∧ cfg.pumpDutyMax < 65536) ∧ cfg.pumpOffDuty < 65536 := by
  simp only [outputsOk, Bool.and_eq_true, decide_eq_true_eq] at h
  obtain ⟨⟨⟨⟨⟨⟨-, hvalve⟩, hdrive⟩, hpump⟩, hmax⟩, hoff⟩, -⟩ := h
  exact ⟨limits_of_clampsOk hvalve, limits_of_clampsOk hdrive, ⟨hpump, hmax⟩, hoff⟩

/-- Settles O59: every duty is clamped but the pump's off duty. -/
theorem dutiesWithinClamps : Obligations.DutiesWithinClamps := by
  intro s n h
  obtain ⟨⟨hvalve, hvalveMax⟩, ⟨hdrive, hdriveMax⟩, ⟨hpump, hpumpMax⟩, hoff⟩ := limits_of_outputsOk h
  rw [mix_duty_getElem, mix_ramp]
  cases s.cfg.pwmMap[n] with
  | pump =>
    simp only [outputDuty, pumpDuty_eq]
    by_cases hr : (mixRamp s)[0] = 0
    · simp only [if_pos hr]
      exact dutyWord_toNat hoff
    · simp only [if_neg hr]
      exact dutyWord_clamp hpump hpumpMax _
  | bucket | boom | stick => exact dutyWord_clamp hvalve hvalveMax _
  | drive0 | drive1 | drive2 => exact dutyWord_clamp hdrive hdriveMax _

/-! ### What a mix depends on (R170, R194) -/

section Inputs

variable {s t : State} (hcvs : t.cvs = s.cvs) (hcfg : t.cfg = s.cfg)

include hcvs hcfg

theorem mixMode_congr : mixMode t = mixMode s := by
  rw [mixMode, mixMode, hcvs, hcfg]

theorem mixOut_congr : mixOut t = mixOut s := by
  rw [mixOut, mixOut, mixMode_congr hcvs hcfg, hcvs, hcfg]

theorem mixRamp_congr (hramp : t.ramp = s.ramp) : mixRamp t = mixRamp s := by
  rw [mixRamp, mixRamp, mixOut_congr hcvs hcfg, hramp, hcfg]

theorem mixPin_congr (hramp : t.ramp = s.ramp) : mixPin t = mixPin s := by
  funext n
  rw [mixPin, mixPin, mixMode_congr hcvs hcfg, mixRamp_congr hcvs hcfg hramp, hcvs, hcfg]

theorem mixIo_congr (hramp : t.ramp = s.ramp) : mixIo t = mixIo s := by
  rw [mixIo, mixIo, mixOut_congr hcvs hcfg, mixRamp_congr hcvs hcfg hramp, mixPin_congr hcvs hcfg hramp, hcfg]

end Inputs

/-- Settles O60: every register a mix writes, and its operations, are functions of the three inputs. -/
theorem mixReadsOnlyItsInputs : Obligations.MixReadsOnlyItsInputs := by
  intro s t hcvs hramp hcfg
  have hmode := mixMode_congr hcvs hcfg
  have hout := mixOut_congr hcvs hcfg
  have hnext := mixRamp_congr hcvs hcfg hramp
  have hpin := mixPin_congr hcvs hcfg hramp
  refine ⟨⟨?_, ?_, ?_, ?_, ?_, ?_⟩, mixIo s, mix_io s, ?_⟩
  · rw [mix_cvs, mix_cvs, hcvs]
  · rw [mix_ramp, mix_ramp, hnext]
  · rw [mix_duty, mix_duty, hnext, hout, hcfg]
  · rw [mix_dout, mix_dout, hpin]
  · rw [mix_pumpActive, mix_pumpActive, hnext]
  · rw [mix_driveSel, mix_driveSel, hmode]
  · rw [mix_io, mixIo_congr hcvs hcfg hramp]

end Sys2Proof.Machine

/-! ## Proofs: events and exceptions (60_exceptions)

Which byte raises a `Drop` and what a `Drop` changes, events that are not enabled, the order of events due together, and the
steps that run no decoded instruction. -/

namespace Sys2Proof.Machine

/-! ### A dropped byte changes only the parse state (R211, R212) -/

section DroppedByte

variable {b : Byte} {e : ErrorKind} {s t : State}

/-- What leaves the drop log as it was has raised no `Drop`. -/
theorem no_drop_of_drops_eq (h : t.drops = s.drops) : t.drops ≠ s.drops ++ [e] := by
  simp [h]

/-- A drop log longer by one entry names the `Drop` that was raised. -/
theorem drop_unique {l : List ErrorKind} {e' : ErrorKind} (h : l ++ [e'] = l ++ [e]) : e' = e := by
  simpa using h

theorem servoAccept_drops (s : State) : (servoAccept s).drops = s.drops := by
  rw [servoAccept_eq]

theorem startTx_fill_drops (bs : List Byte) (s : State) : (startTx (fillResponse bs s)).drops = s.drops := by
  rw [startTx_fill_eq]

/-- In FDL only two bytes raise a `Drop`: one that completes a header inside an attempt, and a last trailer byte that makes the
trailer wrong (R125, R127). -/
theorem rxServo_drop (h : (rxServo b s).drops = s.drops ++ [e]) :
    (e = .resync ∧ rxServo b s = { s with fa := ⟨true, 0, b, ckAfterHeader⟩, drops := s.drops ++ [.resync] }) ∨
    (e = .cksum ∧ rxServo b s =
      { s with fa := { s.fa with sync := false, n := 0, prev := b }, drops := s.drops ++ [.cksum] }) := by
  rcases rxServo_cases b s with
    ⟨-, -, he⟩ | ⟨-, ⟨-, he⟩ | ⟨-, -, he⟩ | ⟨-, -, -, he⟩ | ⟨-, -, -, -, he⟩ | ⟨-, -, -, -, he⟩⟩ <;> rw [he] at h ⊢
  case inl =>
    by_cases hsync : s.fa.sync = true
    · rw [if_pos hsync] at h ⊢
      exact .inl ⟨(drop_unique h).symm, rfl⟩
    · exact absurd h (no_drop_of_drops_eq (if_neg hsync))
  case inr.inr.inr.inr.inr => exact absurd h (no_drop_of_drops_eq (s := s) (servoAccept_drops _))
  case inr.inr.inr.inr.inl => exact .inr ⟨(drop_unique h).symm, rfl⟩
  all_goals exact absurd h (no_drop_of_drops_eq rfl)

/-- A verified query raises only the `Drop`s of R143 and R146, and a dropped one has done nothing else. -/
theorem queryExec_drop {c : Byte} {w : Word16} (h : (queryExec c w s).drops = s.drops ++ [e]) :
    (e = .idx0 ∨ e = .absent ∨ e = .cmd ∨ e = .width) ∧ queryExec c w s = raiseDrop e s := by
  rcases queryExec_cases c w s with
    ⟨e', he', hq⟩ | ⟨-, bs, -, hq⟩ | ⟨-, k, -, -, adc, draws, hq | ⟨raw, -, bs, -, hq⟩⟩ <;> rw [hq] at h ⊢
  · obtain rfl : e' = e := drop_unique h
    exact ⟨he', rfl⟩
  · exact absurd h (no_drop_of_drops_eq (startTx_fill_drops bs s))
  · exact absurd h (no_drop_of_drops_eq rfl)
  · exact absurd h (no_drop_of_drops_eq (startTx_fill_drops bs _))

/-- In HDL a `Drop` is raised by a first byte that is no length byte, with nothing changed, or by the last byte of a query, which
ends the attempt and changes nothing else (R140, R142, R143). -/
theorem rxQuery_drop (h : (rxQuery b s).drops = s.drops ++ [e]) :
    (e = .len ∧ rxQuery b s = raiseDrop .len s) ∨
    (e = .cksum ∧ rxQuery b s = raiseDrop .cksum { s with fa := { s.fa with n := 0 } }) ∨
    ((e = .idx0 ∨ e = .absent ∨ e = .cmd ∨ e = .width) ∧
      rxQuery b s = raiseDrop e { s with fa := { s.fa with n := 0 } }) := by
  rcases rxQuery_cases b s with
    ⟨-, -, he⟩ | ⟨-, -, he⟩ | ⟨-, he⟩ | ⟨-, he⟩ | ⟨-, -, he⟩ | ⟨-, -, he⟩ | ⟨-, he⟩ <;> rw [he] at h ⊢
  case inr.inl => exact .inl ⟨(drop_unique h).symm, rfl⟩
  case inr.inr.inr.inr.inl => exact .inr (.inr (queryExec_drop (s := { s with fa := { s.fa with n := 0 } }) h))
  case inr.inr.inr.inr.inr.inl => exact .inr (.inl ⟨(drop_unique h).symm, rfl⟩)
  all_goals exact absurd h (no_drop_of_drops_eq rfl)

end DroppedByte

/-- Settles O17: the `Drop`s of the two parsers, each with the parse state its row of R211 gives. -/
theorem dropChangesOnlyParseState : Obligations.DropChangesOnlyParseState := by
  intro b s t e hexec hdrop
  cases hexec
  rcases rx_cases b s with he | ⟨-, -, hls, he⟩ | ⟨-, -, hls, he⟩ <;> rw [he] at hdrop ⊢
  · exact absurd hdrop (no_drop_of_drops_eq rfl)
  · rcases rxServo_drop hdrop with ⟨rfl, hrx⟩ | ⟨rfl, hrx⟩ <;> rw [hrx]
    · exact ⟨nofun, rfl⟩
    · exact ⟨nofun, by simp only [if_pos hls]⟩
  · have hfdl : s.ls ≠ .fdl := by rw [hls]; nofun
    rcases rxQuery_drop hdrop with ⟨rfl, hrx⟩ | ⟨rfl, hrx⟩ | ⟨rfl | rfl | rfl | rfl, hrx⟩ <;> rw [hrx]
    · exact ⟨nofun, rfl⟩
    · exact ⟨nofun, by simp only [if_neg hfdl]; rfl⟩
    all_goals exact ⟨nofun, rfl⟩

/-! ### Events that are not enabled (R215, D16) -/

section NotEnabled

variable {s : State}

/-- With the receiver off, or in a link state without a receive handler, a byte is lost (R120, R215). -/
theorem rx_of_not_enabled (h : s.linectl.re = false ∨ s.ls = .hdt ∨ s.ls = .hdtr) (b : Byte) : rx b s = s := by
  rcases rx_cases b s with he | ⟨-, hre, hls, -⟩ | ⟨-, hre, hls, -⟩
  · exact he
  all_goals simp [hre, hls] at h

/-- And so is a sequence of bytes: losing the first leaves the receiver off for the next (R261). -/
theorem rxAll_of_receiver_off (h : s.linectl.re = false) (bytes : List Byte) : rxAll bytes s = s :=
  rxAll_induction (P := fun u => u = s) (fun b _ hu => hu ▸ rx_of_not_enabled (.inl h) b) bytes rfl

theorem txe_of_not_enabled (h : s.linectl.txeie = false ∨ s.ls ≠ .hdt) : txe s = .next s := by
  rcases txe_cases s with he | ⟨-, hen, hls, -⟩
  · exact he
  · simp [hen, hls] at h

theorem tc_of_not_enabled (h : s.linectl.tcie = false ∨ s.ls ≠ .hdtr) : tc s = s := by
  rcases tc_cases s with he | ⟨-, hen, hls, -⟩
  · exact he
  · simp [hen, hls] at h

theorem tmo_of_not_armed (h : s.tmrArmed = false) : tmo s = s := by
  rcases tmo_cases s with he | ⟨-, harmed, -⟩
  · exact he
  · simp [harmed] at h

end NotEnabled

/-- Settles O16: each handler runs only under its enable and in its link state. -/
theorem disabledEventsChangeNothing : Obligations.DisabledEventsChangeNothing :=
  fun _ => ⟨fun b h => congrArg _ (rx_of_not_enabled h b), txe_of_not_enabled, fun h => congrArg _ (tc_of_not_enabled h),
    fun h => congrArg _ (tmo_of_not_armed h)⟩

/-- Settles O29: an inbound frame is its received bytes, and each of them is lost. -/
theorem framesLostWhileReceiverOff : Obligations.FramesLostWhileReceiverOff := by
  intro s hre
  have hlost (bytes : List Byte) : Host.Outcome.next (rxAll bytes s) = (.next s : Host.Outcome State Fault Refusal) :=
    congrArg _ (rxAll_of_receiver_off hre bytes)
  exact ⟨fun _ _ => hlost _, fun _ _ => ⟨hlost _, hlost _, hlost _⟩⟩

/-! ### Events due at the same instant (R216, D37) -/

/-- The picked event and those that stay pending are the events that were due. -/
theorem pickFirst_perm (w : BitVec 11) (ws : List (BitVec 11)) :
    ((pickFirst w ws).1 :: (pickFirst w ws).2).Perm (w :: ws) := by
  induction ws generalizing w with
  | nil => exact .refl _
  | cons v vs ih =>
    simp only [pickFirst]
    split
    · exact .refl _
    · exact (List.Perm.swap ..).trans ((ih v).cons w)

/-- No event that was due has a higher priority than the picked one. -/
theorem pickFirst_priority_le (w : BitVec 11) (ws : List (BitVec 11)) {u : BitVec 11} (hu : u ∈ w :: ws) :
    priority (pickFirst w ws).1 ≤ priority u := by
  induction ws generalizing w with
  | nil => rw [List.mem_singleton.mp hu]; rfl
  | cons v vs ih =>
    have hpicked (hrest : u ∈ v :: vs) : priority (pickFirst v vs).1 ≤ priority u := ih v hrest
    simp only [pickFirst]
    split
    case isTrue hfirst =>
      rcases List.mem_cons.mp hu with rfl | hrest
      · exact le_rfl
      · exact hfirst.trans (hpicked hrest)
    case isFalse hlater =>
      rcases List.mem_cons.mp hu with rfl | hrest
      · exact (not_le.mp hlater).le
      · exact hpicked hrest

/-- The class of an event does not depend on its operand (R84, R216). -/
theorem priority_eventWord (c : BitVec 3) (b : Byte) : priority (eventWord c b) = priority (eventWord c 0) := by
  simp only [priority, eventWord_code]

/-- Settles O7: a `due` slot is taken by `pickFirst`, and the classes of the five events are those of R216. -/
theorem duePriority : Obligations.DuePriority := by
  refine ⟨fun w ws rest => ⟨_, _, rfl, pickFirst_perm w ws, fun u => pickFirst_priority_le w ws⟩, fun b => ?_⟩
  rw [priority_eventWord 1 b]
  decide

/-! ### Steps that run no decoded instruction (R83, R85, R223) -/

section Undecoded

variable {s : State}

/-- `rxAll` is EV_RX of the bytes, one after the other (R85). -/
theorem receives_rxAll (bytes : List Byte) (s : State) : Receives s bytes (rxAll bytes s) := by
  induction bytes generalizing s with
  | nil => exact .nil s
  | cons b bs ih => exact .cons rfl (ih (rx b s))

/-- An instruction that is encoded as inbound bytes is run by receiving those bytes (R85). -/
theorem exec_of_encode_inbound {i : Instr} {bytes : List Byte} (h : encode i = .inbound bytes) (s : State) :
    exec i s = .next (rxAll bytes s) := by
  cases i with
  | servo pairs ck => cases h; rfl
  | qProbe k ck => cases h; rfl
  | qType k ck => cases h; rfl
  | qValue k ck => cases h; rfl
  | rProbe k ck => cases h
  | rType k t ck => cases h
  | rValue2 k v ck => cases h
  | rValue4 k v ck => cases h
  | evRst => cases h
  | evRx b => cases h
  | evTxe => cases h
  | evTc => cases h
  | evTmo => cases h

/-- Inbound bytes are received one by one, whether they are a frame of the table or not (R83). -/
theorem step_of_inbound {bytes : List Byte} {rest : List Slot} (hcfg : cfgOk s.cfg = true)
    (hfetch : fetch s.inbox = some (.inbound bytes, rest)) :
    step s = .next (rxAll bytes { s with inbox := rest }) := by
  cases hdecode : decode (.inbound bytes) with
  | ok i =>
    obtain ⟨hencode, -⟩ := encode_of_decodeInbound hdecode
    rw [step_of_decoded hcfg hfetch hdecode, exec_of_encode_inbound hencode]
  | error e => exact step_of_undecoded hcfg hfetch hdecode

theorem step_of_badConfiguration (hcfg : cfgOk s.cfg = false) : step s = .refused .badConfiguration := by
  rw [step, hcfg]
  rfl

end Undecoded

/-- Settles O6: one lemma for each kind of step; what an undecoded event or response does is nothing, by `runUndecoded`. -/
theorem stepWithoutInstruction : Obligations.StepWithoutInstruction :=
  ⟨fun _ => step_of_idle, fun _ bytes _ hcfg hfetch => ⟨_, step_of_inbound hcfg hfetch, receives_rxAll bytes _⟩,
    fun _ _ _ _ => step_of_undecoded, fun _ _ _ _ => step_of_undecoded, fun _ => step_of_badConfiguration⟩

end Sys2Proof.Machine
